-- ==== Sys2Proof/Word.lean ====
section
/-! DEFINITION. The word type of the CORE: a byte of 8 bits, bit 0 the least significant (spec/00_scope.md R7). -/

namespace Sys2Proof

/-- A byte, the unit of every frame and of the channel (R7, R34). -/
abbrev Byte := BitVec 8

end Sys2Proof
end

