-- ==== Sys2Proof/Config.lean ====
section
/-! DEFINITION. The CORE's parameters (spec/00_scope.md R6) and the one free value of the model, RSSI_IN (R140).

The OPEN parameters N_VFO and INIT_STATE are not constants here: State holds them as data (field `init`), so that a
statement about every state is a statement about every value of them (log entry 1). -/

namespace Sys2Proof.Config

/-- `RX_CAP`, the accumulation buffer's capacity in bytes (R6, R26). -/
@[simp] abbrev rxCap : Nat := 32

/-- `Q_CAP`, the transmission queue's capacity in messages (R6, R125). -/
@[simp] abbrev qCap : Nat := 10

/-- `MIN_FRAME`, the least length of a frame that is dispatched (R6, R52). -/
@[simp] abbrev minFrame : Nat := 6

/-- The longest payload of a dispatched frame, `RX_CAP − 6` (R53). -/
@[simp] abbrev payloadMax : Nat := rxCap - minFrame

/-- `START`, the start marker byte, which opens a frame twice (R6, R51). -/
@[simp] abbrev startMarker : Byte := 0xFE

/-- `END`, the end marker byte (R6, R51). -/
@[simp] abbrev endMarker : Byte := 0xFD

/-- The value of N_VFO in `State.reset`: DESIGN CHOICE, log entry 1 (the standard start state of spec/95_test_vectors.md). -/
@[simp] abbrev resetVfoCount : Nat := 2

/-- The free value RSSI_IN (R140, I10): the `k`-th draw. It has no body a proof can see, so a statement about a reply that
carries it holds for every 16-bit value, with no relation between two draws. Log entry 5. -/
opaque rssiIn : Nat → BitVec 16

end Sys2Proof.Config
end

