-- ==== Sys2Proof/Machine/State.lean ====
section
/-! DEFINITION. The CORE's state as plain data (spec/10_state.md R12 to R33), what the environment offers it, and the outputs it
has given; the ways a step can stop; and the state after reset. -/

namespace Sys2Proof.Machine

/-- One channel record of the register file (R13 to R20). -/
structure Channel where
  /-- `FREQ`, Hz (R14). -/
  freq : BitVec 34
  /-- `MODE`, not interpreted (R15). -/
  mode : Byte
  /-- `SQL` (R16). -/
  sql : Byte
  /-- `GAIN` (R17). -/
  gain : Byte
  /-- `BW` (R18). -/
  bw : Byte
  /-- `TXP` (R19). -/
  txp : Byte
  /-- `STAT`, opaque (R20). -/
  stat : BitVec 16
  deriving DecidableEq, Repr

/-- A record whose every field is zero. -/
def zeroChannel : Channel := ⟨0, 0, 0, 0, 0, 0, 0⟩

/-- One queue slot: a length and the message's bytes (R28, R116). -/
structure Message where
  len : Nat
  data : List Byte
  deriving DecidableEq, Repr

/-- What a queue slot holds after reset: DESIGN CHOICE, log entry 3 (R33 leaves it unspecified; it is not observable). -/
def blankMessage : Message := ⟨7, List.replicate 7 0⟩

/-- The diagnostic codes (spec/60_exceptions.md R150). -/
inductive DiagCode where
  /-- 0x01 (R75). -/
  | rxOverflowDrop
  /-- 0x02 (R79). -/
  | rxShortFrame
  /-- 0x03 (R111). -/
  | cmdUnrecognized
  /-- 0x04 (R97 to R99, R109, R110). -/
  | cmdUnimplemented
  /-- 0x05 (R112). -/
  | setPayloadShort
  /-- 0x06 (R127). -/
  | queueFull
  /-- 0x07 (R130). -/
  | txSpaceDrop
  deriving DecidableEq, Repr

/-- One output of the CORE (R32, R133): outputs are recorded, and no operation reads them (R150). Log entry 8. -/
inductive Event where
  /-- A diag event (R150). -/
  | diag (code : DiagCode)
  /-- One `tx_write` call with the whole message (R139). -/
  | txWrite (bytes : List Byte)
  /-- What a READ_FLAGS returned (R136). -/
  | flagsRead (value : Byte)
  /-- What a READ_FIELD returned (R135). -/
  | fieldRead (value : Nat)
  deriving DecidableEq, Repr

/-- The operations (spec/45_host_interface.md R133) with their arguments, and the environment's `RSSI` line (R64). Arguments
range over more than the legal values, so that R142 can refuse the rest. -/
inductive Op where
  /-- The channel delivers a byte (R74). -/
  | rxByte (b : Byte)
  /-- One drain pass with the free space the channel reports (R128). -/
  | drain (space : Int)
  /-- The host reads field `f` of channel `v` (R135). -/
  | readField (v : Nat) (f : BitVec 3)
  /-- The host reads and clears CHG (R136). -/
  | readFlags
  /-- The host writes `x` to field `f` of channel `v` (R137). -/
  | inject (v : Nat) (f : BitVec 3) (x : Nat)
  /-- The host selects the current channel (R138). -/
  | selectVfo (v : Nat)
  /-- Reset (R155). -/
  | reset
  /-- No operation of the CORE: the environment sets the value the next GET_RSSI samples (R64, R140). -/
  | rssi (r : BitVec 16)
  deriving DecidableEq, Repr

/-- The state of the CORE, and beside it the model's own fields: the parameter `init`, the environment's `script`, `rssiNext` and
`rssiDraws`, and the outputs `out`. -/
structure State where
  /-- `VFO[0 .. N_VFO-1]` (R13). -/
  vfo : List Channel
  /-- `CUR` (R22). -/
  cur : Nat
  /-- `CHG` (R23). -/
  chg : Byte
  /-- `RXBUF[0 .. RX_CAP-1]` (R26). -/
  rxbuf : List Byte
  /-- `RXIDX` (R27). -/
  rxidx : Nat
  /-- `Q[0 .. Q_CAP-1]` (R28). -/
  q : List Message
  /-- `QH` (R28). -/
  qh : Nat
  /-- `QN` (R28). -/
  qn : Nat
  /-- The parameter INIT_STATE; its length is N_VFO (R6, R33). No step changes it. Log entry 1. -/
  init : List Channel
  /-- The operations still to come, in the order the environment chose (R43, R44). Log entry 6. -/
  script : List Op
  /-- The value an `RSSI` line set for the next GET_RSSI (R64). Log entry 5. -/
  rssiNext : Option (BitVec 16)
  /-- How many times RSSI_IN has been sampled: the index of the next free draw (R140). Log entry 5. -/
  rssiDraws : Nat
  /-- The outputs so far, oldest first (R32). Log entry 8. -/
  out : List Event
  deriving DecidableEq, Repr

/-- Why a step is not possible though nothing was refused. The CORE itself raises no fault (R143). -/
inductive Fault where
  /-- Raised by `step` when the environment offers no operation, the only stuck state (spec/93_implementation_defined.md I20).
  Safe: the model stops where nothing happens. -/
  | noOperation
  deriving DecidableEq, Repr

/-- Why a host operation has no meaning (R142). No command is ever refused. -/
inductive Refusal where
  /-- Raised by an arm of `exec` for a command that has no meaning yet; no arm does. Safe. -/
  | notModelled (mnemonic : String)
  /-- Raised by READ_FIELD, INJECT and SELECT_VFO for `v ≥ N_VFO` (R142). Safe. -/
  | channelOutOfRange
  /-- Raised by READ_FIELD and INJECT for the field selector 7 (R41, R142). Safe. -/
  | selectorReserved
  /-- Raised by INJECT for a value that does not fit the field (R137, R142). Safe. -/
  | valueTooWide
  /-- Raised by DRAIN for a negative space (R142). Safe. -/
  | negativeSpace
  deriving DecidableEq, Repr

/-- The state RESET gives for the parameter INIT_STATE = `init` (R33, R155, R156), before the environment offers anything. RXBUF
and the queue slots hold values the spec leaves unspecified: log entries 2 and 3. -/
def State.resetWith (init : List Channel) : State where
  vfo := init
  cur := 0
  chg := 0
  rxbuf := List.replicate Config.rxCap 0
  rxidx := 0
  q := List.replicate Config.qCap blankMessage
  qh := 0
  qn := 0
  init := init
  script := []
  rssiNext := none
  rssiDraws := 0
  out := []

/-- The machine right after reset, for the parameter value of the spec's standard start state S0 (spec/95_test_vectors.md):
N_VFO = 2 and every field zero. DESIGN CHOICE, log entry 1. -/
def State.reset : State := State.resetWith (List.replicate Config.resetVfoCount zeroChannel)

end Sys2Proof.Machine
end

