-- ==== Sys2Proof/Machine/Ops.lean ====
section
/-! DEFINITION. The named operations over the CORE's state: outputs, the current channel's record, the queue and the RSSI input.

There is no operation that takes an exception and none that returns from one: the CORE raises none and has neither
(spec/60_exceptions.md R143, R152). There is no addressed memory (spec/20_memory.md R40). -/

namespace Sys2Proof.Machine

/-- Records one output event (R32). -/
def State.emit (s : State) (e : Event) : State := { s with out := s.out ++ [e] }

/-- `diag(code)` (R150). -/
abbrev State.diag (s : State) (c : DiagCode) : State := s.emit (.diag c)

/-- The 8-bit code of a diag event (R150). -/
def diagByte : DiagCode → Byte
  | .rxOverflowDrop => 0x01
  | .rxShortFrame => 0x02
  | .cmdUnrecognized => 0x03
  | .cmdUnimplemented => 0x04
  | .setPayloadShort => 0x05
  | .queueFull => 0x06
  | .txSpaceDrop => 0x07

/-- `VFO[CUR]` (R22). A CUR that names no channel, which the invariant excludes, reads as zeros: log entry 4. -/
def State.channel (s : State) : Channel := s.vfo.getD s.cur zeroChannel

/-- Replaces the record `VFO[CUR]`; every other record stays (R13). -/
def State.setChannel (s : State) (c : Channel) : State := { s with vfo := s.vfo.set s.cur c }

/-- The slot a new message goes to, `(QH + QN) mod Q_CAP` (R126). -/
def State.tailSlot (s : State) : Nat := (s.qh + s.qn) % Config.qCap

/-- Puts a message into the tail slot and counts it (R126, the accepting branch). -/
def State.push (s : State) (m : Message) : State := { s with q := s.q.set s.tailSlot m, qn := s.qn + 1 }

/-- `enqueue(m)`: accepted if there is room, else dropped with QUEUE_FULL (R126, R127). -/
def State.enqueue (s : State) (m : Message) : State :=
  if s.qn < Config.qCap then s.push m else s.diag .queueFull

/-- The head slot's message, `Q[QH]` (R128). -/
def State.headMessage (s : State) : Message := s.q.getD s.qh blankMessage

/-- Removes the head message (R128). -/
def State.pop (s : State) : State := { s with qh := (s.qh + 1) % Config.qCap, qn := s.qn - 1 }

/-- The queued messages, oldest first: `Q[(QH + k) mod Q_CAP]` for `k = 0 .. QN-1` (R28). -/
def State.pending (s : State) : List Message :=
  (List.range s.qn).map (fun k => s.q.getD ((s.qh + k) % Config.qCap) blankMessage)

/-- `RSSI_IN` as this dispatch samples it: the value an `RSSI` line set, else a free draw (R64, R140). Log entry 5. -/
def State.rssiSample (s : State) : BitVec 16 := s.rssiNext.getD (Config.rssiIn s.rssiDraws)

/-- After a sample the `RSSI` line is used up and the next draw is a fresh one (R64, R140). -/
def State.rssiUsed (s : State) : State := { s with rssiNext := none, rssiDraws := s.rssiDraws + 1 }

end Sys2Proof.Machine
end

