-- ==== Sys2Proof/Machine/Flags.lean ====
section
/-! DEFINITION. The change-flag register CHG, the CORE's only flags (spec/10_state.md R23 to R25, R30). -/

namespace Sys2Proof.Machine

/-- The seven flags of R23, by name. -/
inductive ChangeFlag where
  | freq
  | mode
  | sql
  | gain
  | bw
  | txp
  | mon
  deriving DecidableEq, Repr

/-- The flag's bit number in CHG (R23; bit 7 is reserved and never set). -/
def flagBit : ChangeFlag → Nat
  | .freq => 0
  | .mode => 1
  | .sql => 2
  | .gain => 3
  | .bw => 4
  | .txp => 5
  | .mon => 6

/-- `CHG <- CHG OR (1 << bit)` (R24). -/
def State.setFlag (s : State) (f : ChangeFlag) : State := { s with chg := s.chg ||| (1#8 <<< flagBit f) }

/-- `CHG <- 0x00` (R25, R136). -/
def State.clearFlags (s : State) : State := { s with chg := 0 }

end Sys2Proof.Machine
end

