-- ==== Sys2Proof/Machine/Operands.lean ====
section
/-! DEFINITION. Operand and reply forms: the BCD codec (spec/40_bcd_codec.md), the 16-bit split (spec/20_memory.md R36), the
reply frame (spec/43_outbound_encoder.md) and the host's field selectors (R41). -/

namespace Sys2Proof.Machine

/-- `b[7:4]`, the more significant digit (R7, R35). -/
def highNibble (b : Byte) : Nat := (b.extractLsb' 4 4).toNat

/-- `b[3:0]` (R7). -/
def lowNibble (b : Byte) : Nat := (b.extractLsb' 0 4).toNat

/-- `bcd_decode(B)`, most significant pair first, no nibble swap, digits not validated (R65, R66, R73). -/
def bcdDecode (bytes : List Byte) : Nat :=
  bytes.foldl (fun acc b => acc * 100 + highNibble b * 10 + lowNibble b) 0

/-- The byte of one decimal pair, `((d div 10) << 4) | (d mod 10)` (R68). -/
def pairByte (d : Nat) : Byte := BitVec.ofNat 8 (((d / 10) <<< 4) ||| (d % 10))

/-- The loop of R68: the next `count` pairs of `y`, least significant first, each put before the ones already filled. -/
def bcdFill : (count y : Nat) → (filled : List Byte) → List Byte
  | 0, _, filled => filled
  | count + 1, y, filled => bcdFill count (y / 100) (pairByte (y % 100) :: filled)

/-- `bcd_encode(x)`: five pairs, the least significant in the last byte, digits above the tenth dropped (R68, R69). -/
def bcdEncode (x : Nat) : List Byte := bcdFill 5 x []

/-- `[value[7:0], value[15:8]]`, low byte first (R36, R121). -/
def le16 (value : BitVec 16) : List Byte := [value.extractLsb' 0 8, value.extractLsb' 8 8]

/-- `reply(F, c, payload)`: the request's address bytes echoed by position, then the command and the payload (R116, R117). -/
def reply (a2 a3 c : Byte) (payload : List Byte) : Message where
  len := 6 + payload.length
  data := [Config.startMarker, Config.startMarker, a2, a3, c] ++ payload ++ [Config.endMarker]

/-- The seven fields of a channel record (R13). -/
inductive Field where
  | freq
  | mode
  | sql
  | gain
  | bw
  | txp
  | stat
  deriving DecidableEq, Repr

/-- The field a 3-bit selector names; selector 7 names nothing (R41). -/
def selectField (f : BitVec 3) : Option Field :=
  if f = 0 then some .freq
  else if f = 1 then some .mode
  else if f = 2 then some .sql
  else if f = 3 then some .gain
  else if f = 4 then some .bw
  else if f = 5 then some .txp
  else if f = 6 then some .stat
  else none

/-- The field's width in bits (R13). -/
def fieldWidth : Field → Nat
  | .freq => 34
  | .mode => 8
  | .sql => 8
  | .gain => 8
  | .bw => 8
  | .txp => 8
  | .stat => 16

/-- The field's value as an unsigned number (R135). -/
def readChannel (c : Channel) : Field → Nat
  | .freq => c.freq.toNat
  | .mode => c.mode.toNat
  | .sql => c.sql.toNat
  | .gain => c.gain.toNat
  | .bw => c.bw.toNat
  | .txp => c.txp.toNat
  | .stat => c.stat.toNat

/-- The record with one whole field written (R21, R137). -/
def writeChannel (c : Channel) (f : Field) (x : Nat) : Channel :=
  match f with
  | .freq => { c with freq := BitVec.ofNat 34 x }
  | .mode => { c with mode := BitVec.ofNat 8 x }
  | .sql => { c with sql := BitVec.ofNat 8 x }
  | .gain => { c with gain := BitVec.ofNat 8 x }
  | .bw => { c with bw := BitVec.ofNat 8 x }
  | .txp => { c with txp := BitVec.ofNat 8 x }
  | .stat => { c with stat := BitVec.ofNat 16 x }

end Sys2Proof.Machine
end

