-- ==== Sys2Proof/Machine/HostOps.lean ====
section
/-! DEFINITION. The drain pass (spec/44_transmission_queue.md R128 to R130) and the host's operations
(spec/45_host_interface.md R135 to R138, R142; spec/70_reset_and_hazards.md R155). -/

namespace Sys2Proof.Machine

/-- `DRAIN(space)` (R128): pops one message and writes it whole if it fits, else drops it for good (R130). An empty queue gives
nothing (R129); a negative space is refused (R142). -/
def drain (space : Int) (s : State) : Host.Outcome State Fault Refusal :=
  if space < 0 then .refused .negativeSpace
  else if s.qn = 0 then .next s
  else if (s.headMessage.len : Int) ≤ space then
    .next (s.pop.emit (.txWrite (s.headMessage.data.take s.headMessage.len)))
  else
    .next (s.pop.diag .txSpaceDrop)

/-- `READ_FIELD(v, f)` (R135): the result is an output; nothing of the CORE's state changes. -/
def readField (v : Nat) (f : BitVec 3) (s : State) : Host.Outcome State Fault Refusal :=
  match s.vfo[v]?, selectField f with
  | none, _ => .refused .channelOutOfRange
  | some _, none => .refused .selectorReserved
  | some c, some field => .next (s.emit (.fieldRead (readChannel c field)))

/-- `READ_FLAGS()` (R136): returns CHG and clears it. -/
def readFlags (s : State) : Host.Outcome State Fault Refusal :=
  .next (s.clearFlags.emit (.flagsRead s.chg))

/-- `INJECT(v, f, x)` (R137): writes one whole field, sets no flag, queues nothing. -/
def inject (v : Nat) (f : BitVec 3) (x : Nat) (s : State) : Host.Outcome State Fault Refusal :=
  match s.vfo[v]?, selectField f with
  | none, _ => .refused .channelOutOfRange
  | some _, none => .refused .selectorReserved
  | some c, some field =>
    if x < 2 ^ fieldWidth field then .next { s with vfo := s.vfo.set v (writeChannel c field x) }
    else .refused .valueTooWide

/-- `SELECT_VFO(v)` (R138). -/
def selectVfo (v : Nat) (s : State) : Host.Outcome State Fault Refusal :=
  if v < s.vfo.length then .next { s with cur := v } else .refused .channelOutOfRange

/-- `RESET()` (R155, R157): the CORE's state is the one after reset for its INIT_STATE. What the environment has still to offer
and the outputs already given are not the CORE's state and stay. -/
def resetOp (s : State) : Host.Outcome State Fault Refusal :=
  .next { State.resetWith s.init with
    script := s.script, rssiNext := s.rssiNext, rssiDraws := s.rssiDraws, out := s.out }

/-- An `RSSI r` line (R64): the value the next GET_RSSI samples. -/
def rssiLine (r : BitVec 16) (s : State) : Host.Outcome State Fault Refusal :=
  .next { s with rssiNext := some r }

end Sys2Proof.Machine
end

