-- ==== Sys2Proof/Syntax.lean ====
section
/-! DEFINITION. The commands, one constructor per row of spec/opcode_table.json (spec/30_encoding.md R55, R58).

Commands play the part of instructions (spec/00_scope.md R11). Each carries the operands of its frame
`FE FE A2 A3 CMD P... FD` (R51): the two address bytes `a2` and `a3`, named by position (conflict C1), and the payload `p`.
The fallback row also carries the command byte it was given. -/

namespace Sys2Proof

inductive Instr where
  /-- `CMD = 0x03` (R92). -/
  | getFrequency (a2 a3 : Byte) (p : List Byte)
  /-- `CMD = 0x05` (R93). -/
  | setFrequency (a2 a3 : Byte) (p : List Byte)
  /-- `CMD = 0x06` (R94). -/
  | setMode (a2 a3 : Byte) (p : List Byte)
  /-- `CMD = 0x14` (R95). -/
  | setSquelch (a2 a3 : Byte) (p : List Byte)
  /-- `CMD = 0x15` (R96). -/
  | getSquelch (a2 a3 : Byte) (p : List Byte)
  /-- `CMD = 0x16` (R97). -/
  | setAgc (a2 a3 : Byte) (p : List Byte)
  /-- `CMD = 0x17`, the first code of SET_STEP (R98). -/
  | setStep17 (a2 a3 : Byte) (p : List Byte)
  /-- `CMD = 0x18` (R99). -/
  | setScan (a2 a3 : Byte) (p : List Byte)
  /-- `CMD = 0x19` (R100). -/
  | getRssi (a2 a3 : Byte) (p : List Byte)
  /-- `CMD = 0x1A` (R101). -/
  | setMonitor (a2 a3 : Byte) (p : List Byte)
  /-- `CMD = 0x1C` (R102). -/
  | setRfGain (a2 a3 : Byte) (p : List Byte)
  /-- `CMD = 0x1D` (R103). -/
  | getRfGain (a2 a3 : Byte) (p : List Byte)
  /-- `CMD = 0x1E` (R104). -/
  | setBandwidth (a2 a3 : Byte) (p : List Byte)
  /-- `CMD = 0x1F` (R105). -/
  | getBandwidth (a2 a3 : Byte) (p : List Byte)
  /-- `CMD = 0x20` (R106). -/
  | setTxPower (a2 a3 : Byte) (p : List Byte)
  /-- `CMD = 0x21` (R107). -/
  | getTxPower (a2 a3 : Byte) (p : List Byte)
  /-- `CMD = 0x22` (R108). -/
  | getStatus (a2 a3 : Byte) (p : List Byte)
  /-- `CMD = 0x23`, the second code of SET_STEP (R109). -/
  | setStep23 (a2 a3 : Byte) (p : List Byte)
  /-- `CMD = 0x24` (R110). -/
  | getStep (a2 a3 : Byte) (p : List Byte)
  /-- Any of the 237 other values of `CMD` (R111). -/
  | unrecognized (a2 a3 cmd : Byte) (p : List Byte)
  deriving DecidableEq, Repr

end Sys2Proof
end

