-- ==== Sys2Proof/WellFormed.lean ====
section
/-! DEFINITION. Which terms of `Instr` a frame can stand for.

`Instr.wf` says what a complete buffer can decode to: a payload of at most 26 bytes (spec/30_encoding.md R53), and the fallback
only for a command byte that is none of the 19 listed codes (R55, R111).
`Instr.framable` says which of them the byte stream can carry at all: the framing rules keep some byte values out of some
positions (R60). -/

namespace Sys2Proof

/-- The 19 command codes of R55, in the table's order. -/
def commandCodes : List Byte :=
  [0x03, 0x05, 0x06, 0x14, 0x15, 0x16, 0x17, 0x18, 0x19, 0x1A, 0x1C, 0x1D, 0x1E, 0x1F, 0x20, 0x21, 0x22, 0x23, 0x24]

/-- The instruction's operands in frame order: A2, A3 and the payload. -/
def operands : Instr → Byte × Byte × List Byte
  | .getFrequency a2 a3 p => (a2, a3, p)
  | .setFrequency a2 a3 p => (a2, a3, p)
  | .setMode a2 a3 p => (a2, a3, p)
  | .setSquelch a2 a3 p => (a2, a3, p)
  | .getSquelch a2 a3 p => (a2, a3, p)
  | .setAgc a2 a3 p => (a2, a3, p)
  | .setStep17 a2 a3 p => (a2, a3, p)
  | .setScan a2 a3 p => (a2, a3, p)
  | .getRssi a2 a3 p => (a2, a3, p)
  | .setMonitor a2 a3 p => (a2, a3, p)
  | .setRfGain a2 a3 p => (a2, a3, p)
  | .getRfGain a2 a3 p => (a2, a3, p)
  | .setBandwidth a2 a3 p => (a2, a3, p)
  | .getBandwidth a2 a3 p => (a2, a3, p)
  | .setTxPower a2 a3 p => (a2, a3, p)
  | .getTxPower a2 a3 p => (a2, a3, p)
  | .getStatus a2 a3 p => (a2, a3, p)
  | .setStep23 a2 a3 p => (a2, a3, p)
  | .getStep a2 a3 p => (a2, a3, p)
  | .unrecognized a2 a3 _ p => (a2, a3, p)

/-- The payload fits the longest frame (R53). -/
def payloadFits (i : Instr) : Bool := decide ((operands i).2.2.length ≤ Config.payloadMax)

/-- The fallback stands only for a command byte that no row lists (R111). -/
def fallbackUnlisted : Instr → Bool
  | .unrecognized _ _ cmd _ => !commandCodes.contains cmd
  | _ => true

/-- What a complete buffer can decode to. -/
def Instr.wf (i : Instr) : Bool := payloadFits i && fallbackUnlisted i

/-- No two adjacent bytes of the list are both start markers. -/
def noStartPair : List Byte → Bool
  | [] => true
  | [_] => true
  | a :: b :: rest => !(a == Config.startMarker && b == Config.startMarker) && noStartPair (b :: rest)

/-- The bytes of a frame from the second start marker to the last payload byte may stand there: none is the end marker, and no
two adjacent ones are both start markers (R60). -/
def framableBody (body : List Byte) : Bool :=
  !body.contains Config.endMarker && noStartPair (Config.startMarker :: body)

end Sys2Proof
end

