-- ==== Sys2Proof/Decode.lean ====
section
/-! DEFINITION. From a frame's bytes to an instruction and back (spec/30_encoding.md R51 to R61).

The decoder reads the whole command byte (R55) and passes the operands on; it does not look at bytes 0, 1 and L−1
(R54, spec/41_frame_receiver.md R82). It rejects by name only a length no frame has (R52). -/

namespace Sys2Proof

/-- Why a byte list is no frame. -/
inductive DecodeError where
  /-- Fewer than 6 bytes (R52). -/
  | tooShort
  /-- More than 32 bytes, which no buffer holds (R52). -/
  | tooLong
  deriving DecidableEq, Repr

/-- What the receiver hands to the dispatcher (R54, R78): A2, A3, CMD and P. -/
structure Frame where
  a2 : Byte
  a3 : Byte
  cmd : Byte
  p : List Byte
  deriving DecidableEq, Repr

/-- The fields of a completed buffer of length `len`: `RXBUF[2]`, `RXBUF[3]`, `RXBUF[4]` and `RXBUF[5 .. len-2]` (R54, R78). -/
def frameOfBuffer (buf : List Byte) (len : Nat) : Frame where
  a2 := buf.getD 2 0
  a3 := buf.getD 3 0
  cmd := buf.getD 4 0
  p := (buf.take (len - 1)).drop 5

/-- One row of the command map: a code and the command it selects. -/
abbrev CommandRow := Byte × (Byte → Byte → List Byte → Instr)

/-- The command map (R55), in the table's order. -/
def commandTable : List CommandRow := [
  (0x03, .getFrequency),
  (0x05, .setFrequency),
  (0x06, .setMode),
  (0x14, .setSquelch),
  (0x15, .getSquelch),
  (0x16, .setAgc),
  (0x17, .setStep17),
  (0x18, .setScan),
  (0x19, .getRssi),
  (0x1A, .setMonitor),
  (0x1C, .setRfGain),
  (0x1D, .getRfGain),
  (0x1E, .setBandwidth),
  (0x1F, .getBandwidth),
  (0x20, .setTxPower),
  (0x21, .getTxPower),
  (0x22, .getStatus),
  (0x23, .setStep23),
  (0x24, .getStep)]

/-- The command of a frame, selected by the exact value of CMD (R55, R91), with the fallback of R111. -/
def decodeFrame (f : Frame) : Instr :=
  match commandTable.find? (fun row => row.1 == f.cmd) with
  | some row => row.2 f.a2 f.a3 f.p
  | none => .unrecognized f.a2 f.a3 f.cmd f.p

/-- The instruction of a complete frame's bytes; total on any bytes, rejecting by name (R52, R61). -/
def decode (bytes : List Byte) : Except DecodeError Instr :=
  if bytes.length < Config.minFrame then .error .tooShort
  else if Config.rxCap < bytes.length then .error .tooLong
  else .ok (decodeFrame (frameOfBuffer bytes bytes.length))

/-- The command byte of an instruction (R55). -/
def commandByte : Instr → Byte
  | .getFrequency _ _ _ => 0x03
  | .setFrequency _ _ _ => 0x05
  | .setMode _ _ _ => 0x06
  | .setSquelch _ _ _ => 0x14
  | .getSquelch _ _ _ => 0x15
  | .setAgc _ _ _ => 0x16
  | .setStep17 _ _ _ => 0x17
  | .setScan _ _ _ => 0x18
  | .getRssi _ _ _ => 0x19
  | .setMonitor _ _ _ => 0x1A
  | .setRfGain _ _ _ => 0x1C
  | .getRfGain _ _ _ => 0x1D
  | .setBandwidth _ _ _ => 0x1E
  | .getBandwidth _ _ _ => 0x1F
  | .setTxPower _ _ _ => 0x20
  | .getTxPower _ _ _ => 0x21
  | .getStatus _ _ _ => 0x22
  | .setStep23 _ _ _ => 0x23
  | .getStep _ _ _ => 0x24
  | .unrecognized _ _ cmd _ => cmd

/-- The frame's bytes between its second start marker and its end marker: A2, A3, CMD, P. -/
def frameBody (i : Instr) : List Byte :=
  (operands i).1 :: (operands i).2.1 :: commandByte i :: (operands i).2.2

/-- The bytes of an instruction on the wire, `FE FE A2 A3 CMD P... FD` (R51, R62). -/
def encode (i : Instr) : List Byte :=
  Config.startMarker :: Config.startMarker :: (frameBody i ++ [Config.endMarker])

/-- The byte stream can carry the instruction's frame: no byte of it is taken for a marker (R60). -/
def Instr.framable (i : Instr) : Bool := framableBody (frameBody i)

/-- The bytes of a table word. Bits 7..0 of the table are CMD; a later byte of the word is the next payload byte, and every byte
the word does not give (A2, A3 and the rest of the longest payload) is 0. A word longer than the longest frame has no bytes.
Log entry 7. -/
def tableBytes (nbits w : Nat) : Option (List Byte) :=
  if 8 * (Config.payloadMax + 1) < nbits then none
  else some (Config.startMarker :: Config.startMarker :: 0 :: 0 ::
    ((List.range (Config.payloadMax + 1)).map (fun k => BitVec.ofNat 8 ((w % 2 ^ nbits) >>> (8 * k))) ++ [Config.endMarker]))

/-- The instruction the decoder reads from a table word of `nbits` bits. -/
def decodeTableWord (nbits w : Nat) : Option Instr :=
  match tableBytes nbits w with
  | none => none
  | some bytes =>
    match decode bytes with
    | .ok i => some i
    | .error _ => none

end Sys2Proof
end

