-- ==== Sys2Proof/Machine/Getters.lean ====
section
/-! DEFINITION. The GET commands (spec/42_dispatcher.md R92, R96, R100, R103, R105, R107, R108). Each enqueues one reply built from
the value at this dispatch (R49, R124) and never consults its payload (R113). -/

namespace Sys2Proof.Machine

/-- What every GET does: enqueue one reply, or drop it with QUEUE_FULL (R126, R127). -/
def answer (a2 a3 c : Byte) (payload : List Byte) (s : State) : Host.Outcome State Fault Refusal :=
  .next (s.enqueue (reply a2 a3 c payload))

/-- GET_FREQUENCY (R92, R119). -/
def execGetFrequency (a2 a3 : Byte) (s : State) : Host.Outcome State Fault Refusal :=
  answer a2 a3 0x03 (bcdEncode s.channel.freq.toNat) s

/-- GET_SQUELCH (R96, R120). -/
def execGetSquelch (a2 a3 : Byte) (s : State) : Host.Outcome State Fault Refusal :=
  answer a2 a3 0x15 [s.channel.sql] s

/-- GET_RSSI (R100, R121): RSSI_IN is sampled whether or not the queue has room. -/
def execGetRssi (a2 a3 : Byte) (s : State) : Host.Outcome State Fault Refusal :=
  answer a2 a3 0x19 (le16 s.rssiSample) s.rssiUsed

/-- GET_RFGAIN (R103, R120). -/
def execGetRfGain (a2 a3 : Byte) (s : State) : Host.Outcome State Fault Refusal :=
  answer a2 a3 0x1D [s.channel.gain] s

/-- GET_BANDWIDTH (R105, R120). -/
def execGetBandwidth (a2 a3 : Byte) (s : State) : Host.Outcome State Fault Refusal :=
  answer a2 a3 0x1F [s.channel.bw] s

/-- GET_TX_POWER (R107, R120). -/
def execGetTxPower (a2 a3 : Byte) (s : State) : Host.Outcome State Fault Refusal :=
  answer a2 a3 0x21 [s.channel.txp] s

/-- GET_STATUS (R108, R121). -/
def execGetStatus (a2 a3 : Byte) (s : State) : Host.Outcome State Fault Refusal :=
  answer a2 a3 0x22 (le16 s.channel.stat) s

end Sys2Proof.Machine
end

