-- ==== Sys2Proof/Machine/NoEffect.lean ====
section
/-! DEFINITION. The commands that change no state and only emit a diag event: the listed codes with no effect
(spec/42_dispatcher.md R97 to R99, R109, R110) and the fallback (R111). -/

namespace Sys2Proof.Machine

/-- SET_AGC (R97). -/
def execSetAgc (s : State) : Host.Outcome State Fault Refusal := .next (s.diag .cmdUnimplemented)

/-- SET_STEP, code 0x17 (R98). -/
def execSetStep17 (s : State) : Host.Outcome State Fault Refusal := .next (s.diag .cmdUnimplemented)

/-- SET_SCAN (R99). -/
def execSetScan (s : State) : Host.Outcome State Fault Refusal := .next (s.diag .cmdUnimplemented)

/-- SET_STEP, code 0x23 (R109). -/
def execSetStep23 (s : State) : Host.Outcome State Fault Refusal := .next (s.diag .cmdUnimplemented)

/-- GET_STEP (R110). -/
def execGetStep (s : State) : Host.Outcome State Fault Refusal := .next (s.diag .cmdUnimplemented)

/-- An unrecognized command (R111). -/
def execUnrecognized (s : State) : Host.Outcome State Fault Refusal := .next (s.diag .cmdUnrecognized)

end Sys2Proof.Machine
end

