-- ==== Sys2Proof/Machine/Setters.lean ====
section
/-! DEFINITION. The SET commands that act (spec/42_dispatcher.md R93 to R95, R101, R102, R104, R106). A payload shorter than the
command needs leaves everything but the diag event (R112); extra bytes are ignored; no reply is queued (R115). -/

namespace Sys2Proof.Machine

/-- What every one-byte setter does: with `n ≥ 1`, write the field from `P[0]` and set its flag, else SET_PAYLOAD_SHORT. -/
def setScalar (p : List Byte) (f : Channel → Byte → Channel) (flag : ChangeFlag) (s : State) :
    Host.Outcome State Fault Refusal :=
  match p with
  | [] => .next (s.diag .setPayloadShort)
  | x :: _ => .next ((s.setChannel (f s.channel x)).setFlag flag)

/-- SET_FREQUENCY (R93): five BCD bytes; the decoded value fits the 34-bit register (R67). -/
def execSetFrequency (p : List Byte) (s : State) : Host.Outcome State Fault Refusal :=
  if 5 ≤ p.length then
    .next ((s.setChannel { s.channel with freq := BitVec.ofNat 34 (bcdDecode (p.take 5)) }).setFlag .freq)
  else
    .next (s.diag .setPayloadShort)

/-- SET_MODE (R94). -/
def execSetMode (p : List Byte) (s : State) : Host.Outcome State Fault Refusal :=
  setScalar p (fun c x => { c with mode := x }) .mode s

/-- SET_SQUELCH (R95). -/
def execSetSquelch (p : List Byte) (s : State) : Host.Outcome State Fault Refusal :=
  setScalar p (fun c x => { c with sql := x }) .sql s

/-- SET_RFGAIN (R102). -/
def execSetRfGain (p : List Byte) (s : State) : Host.Outcome State Fault Refusal :=
  setScalar p (fun c x => { c with gain := x }) .gain s

/-- SET_BANDWIDTH (R104). -/
def execSetBandwidth (p : List Byte) (s : State) : Host.Outcome State Fault Refusal :=
  setScalar p (fun c x => { c with bw := x }) .bw s

/-- SET_TX_POWER (R106). -/
def execSetTxPower (p : List Byte) (s : State) : Host.Outcome State Fault Refusal :=
  setScalar p (fun c x => { c with txp := x }) .txp s

/-- SET_MONITOR (R101): the flag alone, whatever the payload; no field is written. -/
def execSetMonitor (s : State) : Host.Outcome State Fault Refusal :=
  .next (s.setFlag .mon)

end Sys2Proof.Machine
end

