-- ==== Sys2Proof/Machine/Dispatch.lean ====
section
/-! DEFINITION. `DISPATCH` (spec/42_dispatcher.md R91): one arm per command, each a direct call of its meaning. A meaning is given
only the operands its rule reads: the addresses for a GET (R117), the payload for a setter that needs one (R112, R113). -/

namespace Sys2Proof.Machine

def exec (i : Instr) (s : State) : Host.Outcome State Fault Refusal :=
  match i with
  | .getFrequency a2 a3 _ => Sys2Proof.Machine.execGetFrequency a2 a3 s
  | .setFrequency _ _ p => Sys2Proof.Machine.execSetFrequency p s
  | .setMode _ _ p => Sys2Proof.Machine.execSetMode p s
  | .setSquelch _ _ p => Sys2Proof.Machine.execSetSquelch p s
  | .getSquelch a2 a3 _ => Sys2Proof.Machine.execGetSquelch a2 a3 s
  | .setAgc _ _ _ => Sys2Proof.Machine.execSetAgc s
  | .setStep17 _ _ _ => Sys2Proof.Machine.execSetStep17 s
  | .setScan _ _ _ => Sys2Proof.Machine.execSetScan s
  | .getRssi a2 a3 _ => Sys2Proof.Machine.execGetRssi a2 a3 s
  | .setMonitor _ _ _ => Sys2Proof.Machine.execSetMonitor s
  | .setRfGain _ _ p => Sys2Proof.Machine.execSetRfGain p s
  | .getRfGain a2 a3 _ => Sys2Proof.Machine.execGetRfGain a2 a3 s
  | .setBandwidth _ _ p => Sys2Proof.Machine.execSetBandwidth p s
  | .getBandwidth a2 a3 _ => Sys2Proof.Machine.execGetBandwidth a2 a3 s
  | .setTxPower _ _ p => Sys2Proof.Machine.execSetTxPower p s
  | .getTxPower a2 a3 _ => Sys2Proof.Machine.execGetTxPower a2 a3 s
  | .getStatus a2 a3 _ => Sys2Proof.Machine.execGetStatus a2 a3 s
  | .setStep23 _ _ _ => Sys2Proof.Machine.execSetStep23 s
  | .getStep _ _ _ => Sys2Proof.Machine.execGetStep s
  | .unrecognized _ _ _ _ => Sys2Proof.Machine.execUnrecognized s

end Sys2Proof.Machine
end

