-- ==== Sys2Proof/Machine/Receiver.lean ====
section
/-! DEFINITION. The frame receiver (spec/41_frame_receiver.md R74 to R90): its three steps in order, as one operation. It checks
neither start markers nor addresses (R82, R83). -/

namespace Sys2Proof.Machine

/-- Step 1 (R75): append the byte, or drop it when the buffer is full. -/
def rxStore (b : Byte) (s : State) : State :=
  if s.rxidx < Config.rxCap then
    { s with rxbuf := s.rxbuf.set s.rxidx b, rxidx := s.rxidx + 1 }
  else
    s.diag .rxOverflowDrop

/-- The last two buffered bytes are the start-marker pair (R76). -/
def endsInStartPair (s : State) : Bool :=
  decide (2 ≤ s.rxidx) && (s.rxbuf.getD (s.rxidx - 2) 0 == Config.startMarker)
    && (s.rxbuf.getD (s.rxidx - 1) 0 == Config.startMarker)

/-- Step 2 (R76): on a start-marker pair, keep only the pair. -/
def rxResync (s : State) : State :=
  if endsInStartPair s then
    { s with rxbuf := (s.rxbuf.set 0 Config.startMarker).set 1 Config.startMarker, rxidx := 2 }
  else
    s

/-- `RXIDX <- 0` (R80). -/
def State.rxClear (s : State) : State := { s with rxidx := 0 }

/-- Step 3 for an end marker (R77 to R81): dispatch a complete frame, or discard a short one. -/
def rxFinish (s : State) : Host.Outcome State Fault Refusal :=
  if Config.minFrame ≤ s.rxidx then
    exec (decodeFrame (frameOfBuffer s.rxbuf s.rxidx)) s.rxClear
  else
    .next (s.diag .rxShortFrame).rxClear

/-- `RX_BYTE(b)` (R74). Step 3 tests the incoming byte, stored or not (R77). -/
def rxByte (b : Byte) (s : State) : Host.Outcome State Fault Refusal :=
  if b = Config.endMarker then rxFinish (rxResync (rxStore b s))
  else .next (rxResync (rxStore b s))

end Sys2Proof.Machine
end

