-- ==== Sys2Proof/Machine/Perform.lean ====
section
/-! DEFINITION. One operation of the CORE (spec/45_host_interface.md R133), the script notation that stands for operations
(spec/30_encoding.md R62 to R64), and placing a table word where the receiver will dispatch it. -/

namespace Sys2Proof.Machine

/-- One atomic operation (R43, R133). -/
def perform (op : Op) (s : State) : Host.Outcome State Fault Refusal :=
  match op with
  | .rxByte b => rxByte b s
  | .drain space => drain space s
  | .readField v f => readField v f s
  | .readFlags => readFlags s
  | .inject v f x => inject v f x s
  | .selectVfo v => selectVfo v s
  | .reset => resetOp s
  | .rssi r => rssiLine r s

/-- The next operation the environment offers; with none offered no step is possible (R43, R44, I20). -/
def performNext (s : State) : Host.Outcome State Fault Refusal :=
  match s.script with
  | [] => .fault .noOperation
  | op :: rest => perform op { s with script := rest }

/-- A receive pass, or a `RAW` or `RX` line: one RX_BYTE per byte (R44, R62, R64). -/
def rxLine (bytes : List Byte) : List Op := bytes.map .rxByte

/-- A frame's line: the RX_BYTE of each of its bytes (R62, R64). -/
def frameLine (i : Instr) : List Op := rxLine (encode i)

/-- The pseudo-instruction `SET_FREQUENCY a2, a3, #d` (R63); it takes `d < 10^10`. -/
def setFrequencyDecimal (a2 a3 : Byte) (d : Nat) : Option Instr :=
  if d < 10 ^ 10 then some (.setFrequency a2 a3 (bcdEncode d)) else none

/-- The operand byte of the pseudo-instructions `SET_MODE`, `SET_SQUELCH`, `SET_RFGAIN`, `SET_BANDWIDTH` and `SET_TX_POWER` with
`#x` (R63); it takes `x ≤ 255`. -/
def scalarDecimal (x : Nat) : Option (List Byte) :=
  if x ≤ 255 then some [BitVec.ofNat 8 x] else none

/-- The buffer holds every byte of the frame but its end marker, and the environment's next operation is the RX_BYTE of that end
marker: the very next step dispatches the frame (R78, R81). Log entry 7. -/
def placeFrame (bytes : List Byte) (s : State) : State :=
  { s with
    rxbuf := bytes.dropLast ++ s.rxbuf.drop (bytes.length - 1)
    rxidx := bytes.length - 1
    script := .rxByte Config.endMarker :: s.script }

end Sys2Proof.Machine
end

