-- ==== Sys2Proof/Machine/Step.lean ====
section
/-! DEFINITION. One step of the machine: the operation the environment offers next (spec/20_memory.md R43, R44). -/

namespace Sys2Proof.Machine

/-- Performs the next operation of the script. -/
def step (s : State) : Host.Outcome State Fault Refusal := performNext s

/-- The state with a table word's instruction placed so that the next step dispatches it. Log entry 7. -/
def State.withFetchWord (s : State) (nbits w : Nat) : State :=
  match tableBytes nbits w with
  | none => s
  | some bytes => placeFrame bytes s

end Sys2Proof.Machine
end

