-- ==== Sys2Proof/Safety.lean ====
section
/-! DEFINITION. What claims count as a legal operation, a good state and a quiescent one. -/

namespace Sys2Proof.Safety

open Sys2Proof.Machine

/-- The operation's arguments are legal (spec/45_host_interface.md R142). -/
def legalOp (s : State) : Op → Bool
  | .drain space => decide (0 ≤ space)
  | .readField v f => decide (v < s.vfo.length) && !(f == 7)
  | .inject v f x =>
    decide (v < s.vfo.length) &&
      (match selectField f with
       | none => false
       | some field => decide (x < 2 ^ fieldWidth field))
  | .selectVfo v => decide (v < s.vfo.length)
  | .rxByte _ => true
  | .readFlags => true
  | .reset => true
  | .rssi _ => true

/-- A slot holds a message of one of the three lengths, with exactly that many bytes (R28, R122). -/
def legalMessage (m : Message) : Bool :=
  (m.len == 7 || m.len == 8 || m.len == 11) && m.data.length == m.len

/-- The partial frame is one the receiver can hold: no end marker, and no start-marker pair after its first byte (R60, R86). -/
def legalPartial (held : List Byte) : Bool :=
  !held.contains Config.endMarker && noStartPair (held.drop 1)

/-- The invariant of the CORE's state: every register within its range (R13, R22, R23, R26 to R28), the slots' messages legal
(R122) and the partial frame one the receiver can hold (R60, R86). -/
def Inv (s : State) : Bool :=
  s.vfo.length == s.init.length && decide (s.cur < s.vfo.length) && !s.chg.getLsbD 7
    && s.rxbuf.length == Config.rxCap && decide (s.rxidx ≤ Config.rxCap)
    && s.q.length == Config.qCap && decide (s.qh < Config.qCap) && decide (s.qn ≤ Config.qCap)
    && s.q.all legalMessage && legalPartial (s.rxbuf.take s.rxidx)

/-- The end of a run (spec/70_reset_and_hazards.md R168): no byte and no other operation to come, and nothing queued. -/
def quiescent (s : State) : Bool := s.script.isEmpty && s.qn == 0

/-- The diag codes among the outputs, in order (R150). -/
def diagsOf (out : List Event) : List DiagCode :=
  out.filterMap (fun e => match e with | .diag c => some c | _ => none)

/-- The messages written to the channel, in order (R139). -/
def writesOf (out : List Event) : List (List Byte) :=
  out.filterMap (fun e => match e with | .txWrite bytes => some bytes | _ => none)

/-- The values READ_FLAGS returned, in order (R136). -/
def flagsOf (out : List Event) : List Byte :=
  out.filterMap (fun e => match e with | .flagsRead r => some r | _ => none)

/-- The outcome with a change made to its next state, if it has one. -/
def mapNext (f : State → State) : Host.Outcome State Fault Refusal → Host.Outcome State Fault Refusal
  | .next s => .next (f s)
  | .fault r => .fault r
  | .refused r => .refused r

end Sys2Proof.Safety
end

