-- ==== Sys2Proof/Certificates/Slice0/Obligations.lean ====
section
/-! DEFINITION. The statements for the provers, from the numbered rules of spec/. Each docstring names the rule or section it
formalises; where a clause rests on a decision of spec/92_eei_decisions.md or on the model's own choice it says so. -/

namespace Sys2Proof.Claims

open Sys2Proof.Machine

/-- What a byte's two nibbles are worth as a decimal pair, `10 * b[7:4] + b[3:0]` (R65). -/
def pairValue (b : Byte) : Nat := 10 * (b.toNat / 16) + b.toNat % 16

/-- The decimal pair of weight `100^k` of `x` as a byte: tens digit in the high nibble (R68). -/
def pairOf (x k : Nat) : Byte := BitVec.ofNat 8 (16 * (x / (10 * 100 ^ k) % 10) + x / 100 ^ k % 10)

/-- Both nibbles of the byte are decimal digits. -/
def isBcd (b : Byte) : Prop := b.toNat / 16 ≤ 9 ∧ b.toNat % 16 ≤ 9

/-- The state after a reply is accepted: the message stands in slot `(QH + QN) mod Q_CAP` and QN has grown by one; nothing else
has changed (R126). -/
def accepted (s : State) (len : Nat) (data : List Byte) : State :=
  { s with q := s.q.set ((s.qh + s.qn) % 10) ⟨len, data⟩, qn := s.qn + 1 }

/-- The state after diag events alone: nothing but the outputs has changed. -/
def noted (s : State) (codes : List DiagCode) : State := { s with out := s.out ++ codes.map .diag }

/-- The commands that consult no payload: the seven GETs, SET_MONITOR, the five with no effect, and the fallback (R113). -/
def ignoresPayload (cmd : Byte) : Prop := cmd ∉ ([0x05, 0x06, 0x14, 0x1C, 0x1E, 0x20] : List Byte)

/-- The setters with too short a payload (R112). -/
def shortSetter (cmd : Byte) (n : Nat) : Prop :=
  (cmd = 0x05 ∧ n < 5) ∨ (cmd ∈ ([0x06, 0x14, 0x1C, 0x1E, 0x20] : List Byte) ∧ n = 0)

/-- The states are equal but for the model's own fields that keep the RSSI input. -/
def alikeButRssi (t u : State) : Prop := t = { u with rssiNext := t.rssiNext, rssiDraws := t.rssiDraws }

/-- The record `c'` is `c` with at most the one field written whose flag is bit `k` of CHG (R23). -/
def writesFieldOfFlag (k : Nat) (c c' : Channel) : Prop :=
  (k = 0 ∧ ∃ f, c' = { c with freq := f }) ∨ (k = 1 ∧ ∃ x, c' = { c with mode := x }) ∨ (k = 2 ∧ ∃ x, c' = { c with sql := x }) ∨
    (k = 3 ∧ ∃ x, c' = { c with gain := x }) ∨ (k = 4 ∧ ∃ x, c' = { c with bw := x }) ∨ (k = 5 ∧ ∃ x, c' = { c with txp := x })

/-- An end marker received in the state dispatches `i`: it is stored after the bytes held, or, with the buffer full, is dropped and
takes the last of them for itself (R78, R84). -/
def dispatches (s : State) (i : Instr) : Prop :=
  (s.rxidx < 32 ∧ decode (s.rxbuf.take s.rxidx ++ [0xFD]) = .ok i) ∨ (s.rxidx = 32 ∧ decode s.rxbuf = .ok i)

/-- Two outcomes are alike: the same stop, or next states in the relation. -/
def alike (rel : State → State → Prop) :
    Host.Outcome State Fault Refusal → Host.Outcome State Fault Refusal → Prop
  | .next s, .next t => rel s t
  | .fault e, .fault e' => e = e'
  | .refused e, .refused e' => e = e'
  | _, _ => False

/-- The states differ at most in the bytes of RXBUF from index RXIDX on. -/
def sameUpToStaleBytes (s t : State) : Prop :=
  t = { s with rxbuf := t.rxbuf } ∧ t.rxbuf.length = s.rxbuf.length ∧ t.rxbuf.take s.rxidx = s.rxbuf.take s.rxidx

/-- How many messages were written to the channel or dropped for want of space. -/
def leftQueue (out : List Event) : Nat :=
  (Safety.writesOf out).length + (Safety.diagsOf out).count .txSpaceDrop

end Sys2Proof.Claims

open Sys2Proof Sys2Proof.Machine Sys2Proof.Claims

/-! ## The BCD codec -/

/-- R65: the decode is the weighted sum of the five pairs, the first byte the most significant. -/
def Obligations.BcdDecodeWeighsFivePairs : Prop :=
  ∀ b0 b1 b2 b3 b4 : Byte,
    bcdDecode [b0, b1, b2, b3, b4] =
      pairValue b0 * 100 ^ 4 + pairValue b1 * 100 ^ 3 + pairValue b2 * 100 ^ 2 + pairValue b3 * 100 + pairValue b4

/-- R67 (an inference the spec marks as its own): every decode fits the 34-bit FREQ register, the bound is reached, and a decode
of valid BCD has at most ten digits. -/
def Obligations.BcdDecodeFitsFreqRegister : Prop :=
  (∀ bytes : List Byte, bytes.length = 5 → bcdDecode bytes ≤ 16666666665 ∧ bcdDecode bytes < 2 ^ 34) ∧
  bcdDecode [0xFF, 0xFF, 0xFF, 0xFF, 0xFF] = 16666666665 ∧
  (∀ bytes : List Byte, bytes.length = 5 → (∀ b ∈ bytes, isBcd b) → bcdDecode bytes < 10 ^ 10)

/-- R68 (which marks the placement into `B[4]` as its own inference), R69 (decision D15: digits above the tenth are dropped): the
encoder puts the pair of weight `100^k` into byte `4 − k`, for every number, and nothing of a higher weight anywhere. -/
def Obligations.BcdEncodeFillsFivePairs : Prop :=
  ∀ x : Nat, bcdEncode x = [pairOf x 4, pairOf x 3, pairOf x 2, pairOf x 1, pairOf x 0]

/-- R69 (decision D15): digits above the tenth are dropped. -/
def Obligations.BcdEncodeDropsDigitsAboveTenth : Prop :=
  ∀ x : Nat, bcdEncode x = bcdEncode (x % 10 ^ 10)

/-- R70: the round trip of every ten-digit frequency. -/
def Obligations.BcdRoundTripsTenDigits : Prop :=
  ∀ f : Nat, f < 10 ^ 10 → bcdDecode (bcdEncode f) = f

/-- R71 (an inference the spec marks as its own): no byte of an encoded frequency is above 0x99 or a marker. -/
def Obligations.BcdEncodeHoldsNoMarkerByte : Prop :=
  ∀ x : Nat, ∀ b ∈ bcdEncode x, isBcd b ∧ b.toNat ≤ 0x99 ∧ b ≠ 0xFD ∧ b ≠ 0xFE

/-- R72 (an inference the spec marks as its own): encoding what was decoded gives the bytes back exactly when they are BCD. -/
def Obligations.BcdReencodesOnlyValidBytes : Prop :=
  ∀ bytes : List Byte, bytes.length = 5 → (bcdEncode (bcdDecode bytes) = bytes ↔ ∀ b ∈ bytes, isBcd b)

/-! ## Decoding and encoding -/

/-- Every well-formed instruction decodes from its own bytes, with every operand at every value (R51, R54, R55). -/
def Obligations.DecodeUndoesEncode : Prop :=
  ∀ i : Instr, i.wf = true → decode (encode i) = .ok i

/-- What the decoder reads is well formed, and encoding it gives the frame's own bytes at every position the decoder reads
(R54, R82: bytes 0, 1 and L−1 are not read). -/
def Obligations.EncodeUndoesDecode : Prop :=
  ∀ (bytes : List Byte) (i : Instr), decode bytes = .ok i →
    i.wf = true ∧ encode i = [0xFE, 0xFE] ++ (bytes.drop 2).dropLast ++ [0xFD]

/-- R52, R53: the decoder rejects exactly the lengths no frame has, each by its name. -/
def Obligations.DecodeRejectsOnlyByLength : Prop :=
  ∀ bytes : List Byte,
    (decode bytes = .error .tooShort ↔ bytes.length < 6) ∧
    (decode bytes = .error .tooLong ↔ 32 < bytes.length) ∧
    ((∃ i, decode bytes = .ok i) ↔ 6 ≤ bytes.length ∧ bytes.length ≤ 32)

/-- The frames of spec/95_test_vectors.md (W3, W5, W6, DV8, DV17, DV27, W8) decode as the vectors say. -/
def Obligations.SpecFramesDecode : Prop :=
  decode [0xFE, 0xFE, 0x00, 0xE0, 0x03, 0xFD] = .ok (.getFrequency 0x00 0xE0 []) ∧
  decode [0xFE, 0xFE, 0x00, 0xE0, 0x05, 0x01, 0x45, 0x00, 0x00, 0x00, 0xFD] =
    .ok (.setFrequency 0x00 0xE0 [0x01, 0x45, 0x00, 0x00, 0x00]) ∧
  decode [0xFE, 0xFE, 0x00, 0xE0, 0x14, 0x80, 0xFD] = .ok (.setSquelch 0x00 0xE0 [0x80]) ∧
  decode [0xFE, 0xFE, 0x00, 0xE0, 0x06, 0x03, 0x01, 0xFD] = .ok (.setMode 0x00 0xE0 [0x03, 0x01]) ∧
  decode [0xFE, 0xFE, 0x00, 0xE0, 0x1A, 0xFD] = .ok (.setMonitor 0x00 0xE0 []) ∧
  decode [0xFE, 0xFE, 0x00, 0xE0, 0x24, 0xFD] = .ok (.getStep 0x00 0xE0 []) ∧
  decode [0xFE, 0xFE, 0x00, 0xE0, 0xFF, 0xFD] = .ok (.unrecognized 0x00 0xE0 0xFF [])

/-- R55, R58: a command byte selects the fallback exactly when it is none of the 19 listed codes. -/
def Obligations.FallbackTakesExactlyUnlistedCodes : Prop :=
  ∀ f : Frame,
    decodeFrame f = .unrecognized f.a2 f.a3 f.cmd f.p ↔
      f.cmd ∉ ([0x03, 0x05, 0x06, 0x14, 0x15, 0x16, 0x17, 0x18, 0x19, 0x1A, 0x1C, 0x1D, 0x1E, 0x1F, 0x20, 0x21, 0x22, 0x23,
        0x24] : List Byte)

/-! ## The GET commands -/

/-- R92 (decision D15: digits above the tenth are dropped): with room, the frequency report joins the queue, five BCD bytes of
`FREQ mod 10^10`, and nothing else changes; with a full queue, QUEUE_FULL is emitted and nothing else changes. The payload is
ignored. -/
def Obligations.GetFrequencyRepliesWithBcd : Prop :=
  ∀ (s : State) (a2 a3 : Byte) (p : List Byte) (c : Channel), s.vfo[s.cur]? = some c →
    (s.qn < 10 → exec (.getFrequency a2 a3 p) s =
      .next (accepted s 11 [0xFE, 0xFE, a2, a3, 0x03, pairOf c.freq.toNat 4, pairOf c.freq.toNat 3, pairOf c.freq.toNat 2,
        pairOf c.freq.toNat 1, pairOf c.freq.toNat 0, 0xFD])) ∧
    (¬ s.qn < 10 → exec (.getFrequency a2 a3 p) s = .next (noted s [.queueFull]))

/-- R96 (decision D10: the reply's command byte is the request's). -/
def Obligations.GetSquelchRepliesWithSquelch : Prop :=
  ∀ (s : State) (a2 a3 : Byte) (p : List Byte) (c : Channel), s.vfo[s.cur]? = some c →
    (s.qn < 10 → exec (.getSquelch a2 a3 p) s = .next (accepted s 7 [0xFE, 0xFE, a2, a3, 0x15, c.sql, 0xFD])) ∧
    (¬ s.qn < 10 → exec (.getSquelch a2 a3 p) s = .next (noted s [.queueFull]))

/-- R100 (decisions D10, D11), R140: the sample is the value an RSSI line set, else the free draw; it holds for every value of the
draw, and the sample is taken, and the draw used up, even when the queue is full. The draw's counter is the model's own field. -/
def Obligations.GetRssiRepliesWithSample : Prop :=
  ∀ (s : State) (a2 a3 : Byte) (p : List Byte) (r : BitVec 16),
    (s.rssiNext = some r ∨ (s.rssiNext = none ∧ r = Config.rssiIn s.rssiDraws)) →
    (s.qn < 10 → exec (.getRssi a2 a3 p) s =
      .next (accepted { s with rssiNext := none, rssiDraws := s.rssiDraws + 1 } 8
        [0xFE, 0xFE, a2, a3, 0x19, BitVec.ofNat 8 (r.toNat % 256), BitVec.ofNat 8 (r.toNat / 256), 0xFD])) ∧
    (¬ s.qn < 10 → exec (.getRssi a2 a3 p) s =
      .next (noted { s with rssiNext := none, rssiDraws := s.rssiDraws + 1 } [.queueFull]))

/-- R103 (decision D10: the reply's command byte is the request's). -/
def Obligations.GetRfGainRepliesWithGain : Prop :=
  ∀ (s : State) (a2 a3 : Byte) (p : List Byte) (c : Channel), s.vfo[s.cur]? = some c →
    (s.qn < 10 → exec (.getRfGain a2 a3 p) s = .next (accepted s 7 [0xFE, 0xFE, a2, a3, 0x1D, c.gain, 0xFD])) ∧
    (¬ s.qn < 10 → exec (.getRfGain a2 a3 p) s = .next (noted s [.queueFull]))

/-- R105 (decision D10: the reply's command byte is the request's). -/
def Obligations.GetBandwidthRepliesWithBandwidth : Prop :=
  ∀ (s : State) (a2 a3 : Byte) (p : List Byte) (c : Channel), s.vfo[s.cur]? = some c →
    (s.qn < 10 → exec (.getBandwidth a2 a3 p) s = .next (accepted s 7 [0xFE, 0xFE, a2, a3, 0x1F, c.bw, 0xFD])) ∧
    (¬ s.qn < 10 → exec (.getBandwidth a2 a3 p) s = .next (noted s [.queueFull]))

/-- R107 (decision D10: the reply's command byte is the request's). -/
def Obligations.GetTxPowerRepliesWithPower : Prop :=
  ∀ (s : State) (a2 a3 : Byte) (p : List Byte) (c : Channel), s.vfo[s.cur]? = some c →
    (s.qn < 10 → exec (.getTxPower a2 a3 p) s = .next (accepted s 7 [0xFE, 0xFE, a2, a3, 0x21, c.txp, 0xFD])) ∧
    (¬ s.qn < 10 → exec (.getTxPower a2 a3 p) s = .next (noted s [.queueFull]))

/-- R108 (decisions D10, D12): STAT as stored, low byte first. -/
def Obligations.GetStatusRepliesLowByteFirst : Prop :=
  ∀ (s : State) (a2 a3 : Byte) (p : List Byte) (c : Channel), s.vfo[s.cur]? = some c →
    (s.qn < 10 → exec (.getStatus a2 a3 p) s =
      .next (accepted s 8 [0xFE, 0xFE, a2, a3, 0x22, BitVec.ofNat 8 (c.stat.toNat % 256),
        BitVec.ofNat 8 (c.stat.toNat / 256), 0xFD])) ∧
    (¬ s.qn < 10 → exec (.getStatus a2 a3 p) s = .next (noted s [.queueFull]))

/-! ## The SET commands -/

/-- R93 (decisions D6: the flag's bit, D14: extra bytes are ignored): with five payload bytes or more, FREQ of the current channel becomes exactly the decoded number (no truncation), CHG bit 0
is set, and nothing else changes; with fewer, SET_PAYLOAD_SHORT and nothing else. -/
def Obligations.SetFrequencyStoresDecodedNumber : Prop :=
  (∀ (s : State) (a2 a3 b0 b1 b2 b3 b4 : Byte) (extra : List Byte) (c : Channel), s.vfo[s.cur]? = some c →
    ∃ f : BitVec 34,
      f.toNat = pairValue b0 * 100 ^ 4 + pairValue b1 * 100 ^ 3 + pairValue b2 * 100 ^ 2 + pairValue b3 * 100 + pairValue b4 ∧
      exec (.setFrequency a2 a3 (b0 :: b1 :: b2 :: b3 :: b4 :: extra)) s =
        .next { s with vfo := s.vfo.set s.cur { c with freq := f }, chg := s.chg ||| 0x01 }) ∧
  (∀ (s : State) (a2 a3 : Byte) (p : List Byte), p.length < 5 →
    exec (.setFrequency a2 a3 p) s = .next (noted s [.setPayloadShort]))

/-- R94 (decisions D4: one raw byte, D6, D14). -/
def Obligations.SetModeStoresFirstByte : Prop :=
  (∀ (s : State) (a2 a3 x : Byte) (extra : List Byte) (c : Channel), s.vfo[s.cur]? = some c →
    exec (.setMode a2 a3 (x :: extra)) s =
      .next { s with vfo := s.vfo.set s.cur { c with mode := x }, chg := s.chg ||| 0x02 }) ∧
  (∀ (s : State) (a2 a3 : Byte), exec (.setMode a2 a3 []) s = .next (noted s [.setPayloadShort]))

/-- R95 (decisions D6: the flag's bit, D14: extra bytes are ignored). -/
def Obligations.SetSquelchStoresFirstByte : Prop :=
  (∀ (s : State) (a2 a3 x : Byte) (extra : List Byte) (c : Channel), s.vfo[s.cur]? = some c →
    exec (.setSquelch a2 a3 (x :: extra)) s =
      .next { s with vfo := s.vfo.set s.cur { c with sql := x }, chg := s.chg ||| 0x04 }) ∧
  (∀ (s : State) (a2 a3 : Byte), exec (.setSquelch a2 a3 []) s = .next (noted s [.setPayloadShort]))

/-- R102 (decisions D6: the flag's bit, D14: extra bytes are ignored). -/
def Obligations.SetRfGainStoresFirstByte : Prop :=
  (∀ (s : State) (a2 a3 x : Byte) (extra : List Byte) (c : Channel), s.vfo[s.cur]? = some c →
    exec (.setRfGain a2 a3 (x :: extra)) s =
      .next { s with vfo := s.vfo.set s.cur { c with gain := x }, chg := s.chg ||| 0x08 }) ∧
  (∀ (s : State) (a2 a3 : Byte), exec (.setRfGain a2 a3 []) s = .next (noted s [.setPayloadShort]))

/-- R104 (decisions D6: the flag's bit, D14: extra bytes are ignored). -/
def Obligations.SetBandwidthStoresFirstByte : Prop :=
  (∀ (s : State) (a2 a3 x : Byte) (extra : List Byte) (c : Channel), s.vfo[s.cur]? = some c →
    exec (.setBandwidth a2 a3 (x :: extra)) s =
      .next { s with vfo := s.vfo.set s.cur { c with bw := x }, chg := s.chg ||| 0x10 }) ∧
  (∀ (s : State) (a2 a3 : Byte), exec (.setBandwidth a2 a3 []) s = .next (noted s [.setPayloadShort]))

/-- R106 (decisions D6: the flag's bit, D14: extra bytes are ignored). -/
def Obligations.SetTxPowerStoresFirstByte : Prop :=
  (∀ (s : State) (a2 a3 x : Byte) (extra : List Byte) (c : Channel), s.vfo[s.cur]? = some c →
    exec (.setTxPower a2 a3 (x :: extra)) s =
      .next { s with vfo := s.vfo.set s.cur { c with txp := x }, chg := s.chg ||| 0x20 }) ∧
  (∀ (s : State) (a2 a3 : Byte), exec (.setTxPower a2 a3 []) s = .next (noted s [.setPayloadShort]))

/-- R101 (decision D6: the flag's bit): with any payload, the monitor flag alone. -/
def Obligations.SetMonitorSetsItsFlagOnly : Prop :=
  ∀ (s : State) (a2 a3 : Byte) (p : List Byte), exec (.setMonitor a2 a3 p) s = .next { s with chg := s.chg ||| 0x40 }

/-- R97 to R99, R109, R110 (decision D13): the listed commands with no effect emit CMD_UNIMPLEMENTED and change nothing else. -/
def Obligations.UnimplementedCommandsOnlyNote : Prop :=
  ∀ (s : State) (a2 a3 : Byte) (p : List Byte),
    exec (.setAgc a2 a3 p) s = .next (noted s [.cmdUnimplemented]) ∧
    exec (.setStep17 a2 a3 p) s = .next (noted s [.cmdUnimplemented]) ∧
    exec (.setScan a2 a3 p) s = .next (noted s [.cmdUnimplemented]) ∧
    exec (.setStep23 a2 a3 p) s = .next (noted s [.cmdUnimplemented]) ∧
    exec (.getStep a2 a3 p) s = .next (noted s [.cmdUnimplemented])

/-- R111: an unrecognized command emits CMD_UNRECOGNIZED and changes nothing else, whatever its code and payload. -/
def Obligations.UnrecognizedCommandOnlyNotes : Prop :=
  ∀ (s : State) (a2 a3 cmd : Byte) (p : List Byte),
    exec (.unrecognized a2 a3 cmd p) s = .next (noted s [.cmdUnrecognized])

/-! ## Rules common to all commands -/

/-- R112: SET_PAYLOAD_SHORT is emitted by exactly the setters with too short a payload, and they do nothing else. -/
def Obligations.ShortPayloadNoteMeansShortSetter : Prop :=
  ∀ (i : Instr) (s : State), i.wf = true →
    (shortSetter (commandByte i) (operands i).2.2.length ↔ exec i s = .next (noted s [.setPayloadShort]))

/-- R113: commands that consult no payload do the same with every payload. -/
def Obligations.GettersNeverConsultPayload : Prop :=
  ∀ (i j : Instr) (s : State), i.wf = true → j.wf = true → commandByte i = commandByte j → ignoresPayload (commandByte i) →
    (operands i).1 = (operands j).1 → (operands i).2.1 = (operands j).2.1 → exec i s = exec j s

/-- R21, R22, R153: whatever the command, it completes; no other channel's record, no STAT, neither CUR nor the receiver nor the
queue's head is touched, and the number of channels stays. -/
def Obligations.CommandsTouchOnlyCurrentChannel : Prop :=
  ∀ (i : Instr) (s : State), ∃ t, exec i s = .next t ∧
    (∀ v, v ≠ s.cur → t.vfo[v]? = s.vfo[v]?) ∧ t.vfo.map Channel.stat = s.vfo.map Channel.stat ∧ t.cur = s.cur ∧
    t.rxbuf = s.rxbuf ∧ t.rxidx = s.rxidx ∧ t.qh = s.qh ∧ t.init = s.init ∧ t.script = s.script

/-- R114 (an inference the spec marks as its own), R115, R24: a command's whole effect is one of four: one diag event and nothing
else; the monitor flag and nothing else; one field of the current channel's record with the flag of that field (the flag's bit:
decision D6); or, with room in the queue, one message at its tail. Only GET_RSSI also uses up the RSSI input, which is the model's own
field and no state of the CORE (log entry 5). -/
def Obligations.CommandsHaveOneEffect : Prop :=
  ∀ (i : Instr) (s t : State), exec i s = .next t →
    (commandByte i ≠ 0x19 → t.rssiNext = s.rssiNext ∧ t.rssiDraws = s.rssiDraws) ∧
    ((∃ c : DiagCode, alikeButRssi t (noted s [c])) ∨
      t = { s with chg := s.chg ||| 0x40 } ∨
      (∃ (k : Nat) (c' : Channel), t = { s with vfo := s.vfo.set s.cur c', chg := s.chg ||| (1#8 <<< k) } ∧
        ∀ c, s.vfo[s.cur]? = some c → writesFieldOfFlag k c c') ∨
      (∃ (len : Nat) (data : List Byte), s.qn < 10 ∧ alikeButRssi t (accepted s len data)))

/-- R117, R118 (decision D10), R122, R131: the queue after a command is the queue before it, or it has one more message at its tail,
a frame that echoes the request's address bytes and command and has the length of one of the three reply forms. -/
def Obligations.RepliesJoinTheTail : Prop :=
  ∀ (i : Instr) (s t : State), Safety.Inv s = true → exec i s = .next t →
    t.pending = s.pending ∨
    ∃ (m : Message) (payload : List Byte), s.qn < 10 ∧ t.pending = s.pending ++ [m] ∧
      m.data = [0xFE, 0xFE, (operands i).1, (operands i).2.1, commandByte i] ++ payload ++ [0xFD] ∧
      m.len = m.data.length ∧ (m.len = 7 ∨ m.len = 8 ∨ m.len = 11)

/-! ## The frame receiver -/

/-- R78, R81: when the environment's next operation brings the end marker of a buffer whose bytes decode to an instruction, the
step is that instruction, run on the state in which the operation is consumed, the marker is stored and RXIDX is 0. -/
def Obligations.StepRunsTheDecodedInstruction : Prop :=
  ∀ (s : State) (rest : List Op) (i : Instr),
    s.script = .rxByte 0xFD :: rest → s.rxbuf.length = 32 → s.rxidx < 32 →
    decode (s.rxbuf.take s.rxidx ++ [0xFD]) = .ok i →
    step s = exec i { s with script := rest, rxbuf := s.rxbuf.set s.rxidx 0xFD, rxidx := 0 }

/-- R84: while the buffer is full every byte but an end marker is dropped, start markers too; an end marker is itself dropped and
dispatches the 32 bytes held, of which the last is not passed on. -/
def Obligations.FullBufferDropsThenDispatches : Prop :=
  ∀ (s : State) (b : Byte) (rest : List Op),
    Safety.Inv s = true → s.rxidx = 32 → s.script = .rxByte b :: rest →
    (b ≠ 0xFD → step s = .next (noted { s with script := rest } [.rxOverflowDrop])) ∧
    (b = 0xFD → ∀ i, decode s.rxbuf = .ok i →
      (operands i).2.2 = (s.rxbuf.take 31).drop 5 ∧
      step s = exec i (noted { s with script := rest, rxidx := 0 } [.rxOverflowDrop]))

/-- R75: a byte that is no end marker and completes no start-marker pair is stored at RXBUF[RXIDX], if there is room. -/
def Obligations.ByteIsStoredWhileRoomRemains : Prop :=
  ∀ (s : State) (b : Byte) (rest : List Op),
    s.script = .rxByte b :: rest → s.rxbuf.length = 32 → s.rxidx < 32 → b ≠ 0xFD →
    ¬ (b = 0xFE ∧ 1 ≤ s.rxidx ∧ s.rxbuf[s.rxidx - 1]? = some 0xFE) →
    step s = .next { s with script := rest, rxbuf := s.rxbuf.set s.rxidx b, rxidx := s.rxidx + 1 }

/-- R76: a start marker after a start marker leaves the buffer holding just the pair, with no diag event. -/
def Obligations.StartPairDiscardsWhatCameBefore : Prop :=
  ∀ (s : State) (rest : List Op),
    s.script = .rxByte 0xFE :: rest → s.rxbuf.length = 32 → s.rxidx < 32 → 1 ≤ s.rxidx →
    s.rxbuf[s.rxidx - 1]? = some 0xFE →
    ∃ buf : List Byte, buf.length = 32 ∧ buf.take 2 = [0xFE, 0xFE] ∧
      step s = .next { s with script := rest, rxbuf := buf, rxidx := 2 }

/-- R79 (with the marker's store of R74, R75, whose byte RXIDX = 0 makes unobservable by R87, an inference the spec marks as its own):
an end marker that makes a buffer of fewer than six bytes discards it; only RXIDX, the stored byte and the diag stream change. -/
def Obligations.ShortFrameIsDiscarded : Prop :=
  ∀ (s : State) (rest : List Op),
    s.script = .rxByte 0xFD :: rest → s.rxidx ≤ 4 →
    step s = .next (noted { s with script := rest, rxbuf := s.rxbuf.set s.rxidx 0xFD, rxidx := 0 } [.rxShortFrame])

/-- R80: in all cases an end marker leaves RXIDX = 0, and the operation completes. -/
def Obligations.EndMarkerAlwaysEmptiesBuffer : Prop :=
  ∀ (s : State) (rest : List Op), s.script = .rxByte 0xFD :: rest → ∃ t, step s = .next t ∧ t.rxidx = 0

/-- R50, R159: a byte that is no end marker changes nothing but the receiver and the diag stream, so no command acts before its end
marker. -/
def Obligations.NoEffectBeforeTheEndMarker : Prop :=
  ∀ (s : State) (b : Byte) (rest : List Op), s.script = .rxByte b :: rest → b ≠ 0xFD →
    ∃ (buf : List Byte) (idx : Nat) (codes : List DiagCode),
      step s = .next (noted { s with script := rest, rxbuf := buf, rxidx := idx } codes) ∧ codes.length ≤ 1

/-- The receiver refines the decoder (R51, R62, R74 to R81): from any state with room for a start-marker pair, whatever partial
frame it holds, the bytes of a framable well-formed instruction, received one operation each, run exactly that instruction. -/
def Obligations.ReceivedFrameRunsItsInstruction : Prop :=
  ∀ (i : Instr) (s : State) (rest : List Op),
    i.wf = true → i.framable = true → s.rxbuf.length = 32 → s.rxidx ≤ 30 →
    s.script = (encode i).map .rxByte ++ rest →
    ∃ buf : List Byte, buf.length = 32 ∧
      Host.Core.run Sys2Proof.core (encode i).length s = exec i { s with script := rest, rxbuf := buf, rxidx := 0 }

/-- R60 (an inference the spec marks as its own), R84: from every state that meets the invariant, what an end marker dispatches, from
a full buffer too, holds no end marker and no start-marker pair, and its first byte is no start marker if the frame began with the
pair. -/
def Obligations.DispatchedFramesHoldNoMarkers : Prop :=
  ∀ (s : State) (i : Instr), Safety.Inv s = true → dispatches s i →
    0xFD ∉ frameBody i ∧ noStartPair (frameBody i) = true ∧ (s.rxbuf[1]? = some 0xFE → i.framable = true)

/-- R31, R87: the bytes of RXBUF from index RXIDX on are not observable: two states that differ only there step alike. -/
def Obligations.StaleBufferBytesAreNeverSeen : Prop :=
  ∀ (s t : State), s.rxbuf.length = 32 → s.rxidx ≤ 32 → sameUpToStaleBytes s t →
    alike sameUpToStaleBytes (step s) (step t)

/-! ## The transmission queue -/

/-- R128, R130 (decision D19: space equal to the length is enough): DRAIN takes the oldest message off the queue; it is written whole
if it fits, else dropped for good. -/
def Obligations.DrainTakesTheOldestMessage : Prop :=
  ∀ (s : State) (space : Int) (rest : List Op) (m : Message) (ms : List Message),
    Safety.Inv s = true → s.script = .drain space :: rest → 0 ≤ space → s.pending = m :: ms →
    ∃ t, step s = .next t ∧ t.pending = ms ∧
      t = { s with
        script := rest, qh := (s.qh + 1) % 10, qn := s.qn - 1,
        out := s.out ++ [if (m.len : Int) ≤ space then .txWrite m.data else .diag .txSpaceDrop] }

/-- R129 (decision D19): a DRAIN on an empty queue does nothing. -/
def Obligations.DrainOfEmptyQueueDoesNothing : Prop :=
  ∀ (s : State) (space : Int) (rest : List Op),
    s.script = .drain space :: rest → 0 ≤ space → s.qn = 0 → step s = .next { s with script := rest }

/-- R49, R131: no step changes a queued message: the queue after a step is the queue before it, or that with one message more at its
tail, or that without its oldest message, or empty after a RESET. -/
def Obligations.QueuedMessagesAreImmutable : Prop :=
  ∀ s t : State, Safety.Inv s = true → step s = .next t →
    t.pending = s.pending ∨ (∃ m, t.pending = s.pending ++ [m]) ∨ (∃ m, s.pending = m :: t.pending) ∨
    (s.script.head? = some .reset ∧ t.pending = [])

/-- R132 (an inference the spec marks as its own): but for RESET, every message that leaves the queue was written or dropped for want
of space, and at most one joins it, at an end marker; the queue never holds more than ten. -/
def Obligations.QueueConservesMessages : Prop :=
  ∀ s t : State, Safety.Inv s = true → step s = .next t → s.script.head? ≠ some .reset →
    t.qn ≤ 10 ∧
    (t.qn + leftQueue t.out = s.qn + leftQueue s.out ∨
      (s.script.head? = some (.rxByte 0xFD) ∧ s.qn < 10 ∧ t.qn + leftQueue t.out = s.qn + leftQueue s.out + 1))

/-! ## The host's operations -/

/-- R135 (decision D22: the selectors): READ_FIELD returns the selected field of the selected channel and changes no state. -/
def Obligations.ReadFieldReturnsTheField : Prop :=
  ∀ (s : State) (v : Nat) (f : BitVec 3) (rest : List Op) (c : Channel),
    s.script = .readField v f :: rest → s.vfo[v]? = some c → f.toNat < 7 →
    ∃ x, [c.freq.toNat, c.mode.toNat, c.sql.toNat, c.gain.toNat, c.bw.toNat, c.txp.toNat, c.stat.toNat][f.toNat]? = some x ∧
      step s = .next { s with script := rest, out := s.out ++ [.fieldRead x] }

/-- R136: READ_FLAGS returns CHG and clears all of it in one step; nothing else changes. -/
def Obligations.ReadFlagsReturnsAndClears : Prop :=
  ∀ (s : State) (rest : List Op), s.script = .readFlags :: rest →
    step s = .next { s with script := rest, chg := 0, out := s.out ++ [.flagsRead s.chg] }

/-- R137 (decision D21: at any time, no flag): INJECT writes the one field, for every selector and every value that fits. -/
def Obligations.InjectWritesOneField : Prop :=
  ∀ (s : State) (v x : Nat) (f : BitVec 3) (rest : List Op) (c : Channel),
    s.script = .inject v f x :: rest → s.vfo[v]? = some c → f.toNat < 7 →
    (f.toNat = 0 → x < 2 ^ 34) → (1 ≤ f.toNat → f.toNat ≤ 5 → x < 2 ^ 8) → (f.toNat = 6 → x < 2 ^ 16) →
    ∃ c' : Channel, step s = .next { s with script := rest, vfo := s.vfo.set v c' } ∧
      [c'.freq.toNat, c'.mode.toNat, c'.sql.toNat, c'.gain.toNat, c'.bw.toNat, c'.txp.toNat, c'.stat.toNat] =
        [c.freq.toNat, c.mode.toNat, c.sql.toNat, c.gain.toNat, c.bw.toNat, c.txp.toNat, c.stat.toNat].set f.toNat x

/-- R138 (decision D9): SELECT_VFO changes CUR alone. -/
def Obligations.SelectVfoMovesCurOnly : Prop :=
  ∀ (s : State) (v : Nat) (rest : List Op), s.script = .selectVfo v :: rest → v < s.vfo.length →
    step s = .next { s with script := rest, cur := v }

/-- R142 (decisions D9, D22), R143, I20: a step is not possible exactly when the environment offers no operation; it is refused
exactly when the operation offered has an illegal argument; else it completes, whatever the state. -/
def Obligations.StepStopsOnlyOnIllegalArguments : Prop :=
  ∀ s : State,
    ((∃ e, step s = .fault e) ↔ s.script = []) ∧
    ((∃ r, step s = .refused r) ↔ ∃ op rest, s.script = op :: rest ∧ Safety.legalOp s op = false) ∧
    ((∃ t, step s = .next t) ↔ ∃ op rest, s.script = op :: rest ∧ Safety.legalOp s op = true)

/-- R142: each illegal argument is refused under its own name. That an index out of range is named before a selector, and a selector
before a value, is the model's choice (log entry 10). -/
def Obligations.IllegalArgumentsAreNamed : Prop :=
  ∀ (s : State) (rest : List Op) (v x : Nat) (f : BitVec 3) (space : Int),
    (space < 0 → s.script = .drain space :: rest → step s = .refused .negativeSpace) ∧
    (s.vfo.length ≤ v → s.script = .selectVfo v :: rest → step s = .refused .channelOutOfRange) ∧
    (s.vfo.length ≤ v → s.script = .readField v f :: rest → step s = .refused .channelOutOfRange) ∧
    (s.vfo.length ≤ v → s.script = .inject v f x :: rest → step s = .refused .channelOutOfRange) ∧
    (v < s.vfo.length → s.script = .readField v 7 :: rest → step s = .refused .selectorReserved) ∧
    (v < s.vfo.length → s.script = .inject v 7 x :: rest → step s = .refused .selectorReserved) ∧
    (v < s.vfo.length → 2 ^ 34 ≤ x → s.script = .inject v 0 x :: rest → step s = .refused .valueTooWide) ∧
    (v < s.vfo.length → 1 ≤ f.toNat → f.toNat ≤ 5 → 2 ^ 8 ≤ x → s.script = .inject v f x :: rest →
      step s = .refused .valueTooWide) ∧
    (v < s.vfo.length → 2 ^ 16 ≤ x → s.script = .inject v 6 x :: rest → step s = .refused .valueTooWide)

/-- R33, R155, R157 (decision D20): RESET gives every channel its INIT_STATE and empties the flags, the receiver and the queue. That
RXBUF and the slots are the values of log entries 2 and 3, and that script, RSSI input and outputs stay, is the model's choice. -/
def Obligations.ResetGivesTheFirstState : Prop :=
  ∀ (s : State) (rest : List Op), s.script = .reset :: rest →
    step s = .next { State.resetWith s.init with
      script := rest, rssiNext := s.rssiNext, rssiDraws := s.rssiDraws, out := s.out } ∧
    (State.resetWith s.init).vfo = s.init ∧ (State.resetWith s.init).cur = 0 ∧ (State.resetWith s.init).chg = 0 ∧
    (State.resetWith s.init).rxidx = 0 ∧ (State.resetWith s.init).qh = 0 ∧ (State.resetWith s.init).qn = 0

/-! ## The whole machine -/

/-- The invariant holds after reset for every INIT_STATE of at least one channel (R13, R33), and in `State.reset`, whose two zero
channels are the model's choice (log entry 1). -/
def Obligations.InvariantHoldsAtReset : Prop :=
  (∀ init : List Channel, init ≠ [] → Safety.Inv (State.resetWith init) = true) ∧ Safety.Inv State.reset = true

/-- Every step keeps the invariant: CUR names a channel (R22), CHG bit 7 reads 0 (R23), RXIDX, QH and QN stay in range (R26 to R28),
every slot holds a message of length 7, 8 or 11 (R122), and the partial frame holds no end marker and, after its first byte, no
start-marker pair (R60, R86). -/
def Obligations.EveryStepKeepsTheInvariant : Prop :=
  ∀ s t : State, Safety.Inv s = true → step s = .next t → Safety.Inv t = true

/-- R25: no flag is cleared but by READ_FLAGS, which clears and returns them all, and by RESET. -/
def Obligations.FlagsAreClearedOnlyAsABatch : Prop :=
  ∀ s t : State, step s = .next t →
    (s.script.head? = some .readFlags → t.chg = 0 ∧ t.out = s.out ++ [.flagsRead s.chg]) ∧
    (s.script.head? = some .reset → t.chg = 0) ∧
    (s.script.head? ≠ some .readFlags → s.script.head? ≠ some .reset → ∀ k, s.chg.getLsbD k = true → t.chg.getLsbD k = true)

/-- R22, R20, R6: CUR moves only by SELECT_VFO and RESET, STAT only by INJECT and RESET, and the parameter INIT_STATE never. -/
def Obligations.CurAndStatMoveOnlyByTheHost : Prop :=
  ∀ s t : State, step s = .next t →
    t.init = s.init ∧
    ((∀ v, s.script.head? ≠ some (.selectVfo v)) → s.script.head? ≠ some .reset → t.cur = s.cur) ∧
    ((∀ v f x, s.script.head? ≠ some (.inject v f x)) → s.script.head? ≠ some .reset →
      t.vfo.map Channel.stat = s.vfo.map Channel.stat)

/-- R150: outputs are never read: what a step does, and what it puts out, is the same whatever was put out before, and nothing put
out is taken back. -/
def Obligations.OutputsAreNeverRead : Prop :=
  ∀ (s : State) (before : List Event),
    step { s with out := before } =
      Safety.mapNext (fun t => { t with out := before ++ t.out }) (step { s with out := [] })

/-- R149 (an inference the spec marks as its own): a step emits at most two diag events; of two, the first is RX_OVERFLOW_DROP and the
second comes from a dispatch. -/
def Obligations.DiagEventsComeInOrder : Prop :=
  ∀ s t : State, Safety.Inv s = true → step s = .next t → ∃ es : List Event, t.out = s.out ++ es ∧
    ((Safety.diagsOf es).length ≤ 1 ∨
      ∃ c : DiagCode, es = [.diag .rxOverflowDrop, .diag c] ∧ s.script.head? = some (.rxByte 0xFD) ∧
        c ∈ ([.cmdUnrecognized, .cmdUnimplemented, .setPayloadShort, .queueFull] : List DiagCode))
end

