-- ==== Sys2Proof/Laws/Codec.lean ====
section
/-! SUPPORT. The nibbles, the BCD codec and the 16-bit split in plain arithmetic. -/

namespace Sys2Proof.Machine

theorem highNibble_eq (b : Byte) : highNibble b = b.toNat / 16 := by
  have h := b.isLt
  simp only [highNibble, BitVec.extractLsb'_toNat, Nat.shiftRight_eq_div_pow]
  omega

theorem lowNibble_eq (b : Byte) : lowNibble b = b.toNat % 16 := by
  simp [lowNibble, BitVec.extractLsb'_toNat]

/-- The loop of R65 over five bytes. -/
theorem bcdDecode_five (b0 b1 b2 b3 b4 : Byte) :
    bcdDecode [b0, b1, b2, b3, b4] =
      ((((highNibble b0 * 10 + lowNibble b0) * 100 + highNibble b1 * 10 + lowNibble b1) * 100 + highNibble b2 * 10
        + lowNibble b2) * 100 + highNibble b3 * 10 + lowNibble b3) * 100 + highNibble b4 * 10 + lowNibble b4 := by
  simp [bcdDecode]

/-- The loop of R68 run out. -/
theorem bcdEncode_five (x : Nat) :
    bcdEncode x = [pairByte (x / 100 / 100 / 100 / 100 % 100), pairByte (x / 100 / 100 / 100 % 100),
      pairByte (x / 100 / 100 % 100), pairByte (x / 100 % 100), pairByte (x % 100)] := rfl

theorem toNat_pairByte {d : Nat} (h : d < 100) : (pairByte d).toNat = 16 * (d / 10) + d % 10 := by
  have hor : ((d / 10) <<< 4 ||| d % 10) = (d / 10) <<< 4 + d % 10 := by
    rw [← Nat.shiftLeft_add_eq_or_of_lt (by omega : d % 10 < 2 ^ 4)]
  rw [pairByte, BitVec.toNat_ofNat, hor, Nat.shiftLeft_eq]
  omega

theorem highNibble_pairByte {d : Nat} (h : d < 100) : highNibble (pairByte d) = d / 10 := by
  rw [highNibble_eq, toNat_pairByte h]; omega

theorem lowNibble_pairByte {d : Nat} (h : d < 100) : lowNibble (pairByte d) = d % 10 := by
  rw [lowNibble_eq, toNat_pairByte h]; omega

/-- The two bytes of a 16-bit reply value, low first (R36). -/
theorem le16_eq (v : BitVec 16) : le16 v = [BitVec.ofNat 8 (v.toNat % 256), BitVec.ofNat 8 (v.toNat / 256)] := by
  have h := v.isLt
  have h0 : v.extractLsb' 0 8 = BitVec.ofNat 8 (v.toNat % 256) := by
    apply BitVec.eq_of_toNat_eq; simp [BitVec.extractLsb'_toNat]
  have h1 : v.extractLsb' 8 8 = BitVec.ofNat 8 (v.toNat / 256) := by
    apply BitVec.eq_of_toNat_eq; simp [BitVec.extractLsb'_toNat, Nat.shiftRight_eq_div_pow]
  simp [le16, h0, h1]

end Sys2Proof.Machine
end

