-- ==== Sys2Proof/Laws/Decode.lean ====
section
/-! SUPPORT. The decoder's and encoder's small lemmas. -/

namespace Sys2Proof

/-- The bytes of an instruction are as long as its frame (R53). -/
theorem length_encode (i : Instr) : (encode i).length = Config.minFrame + (operands i).2.2.length := by
  simp [encode, frameBody]; omega

/-- All that `decodeFrame` can answer: the row of the frame's command byte, or the fallback for a byte no row has (R55, R111). -/
theorem decodeFrame_cases (f : Frame) :
    (∃ row ∈ commandTable, row.1 = f.cmd ∧ decodeFrame f = row.2 f.a2 f.a3 f.p) ∨
    ((∀ row ∈ commandTable, row.1 ≠ f.cmd) ∧ decodeFrame f = .unrecognized f.a2 f.a3 f.cmd f.p) := by
  unfold decodeFrame
  split
  · next row h => exact .inl ⟨row, List.mem_of_find?_eq_some h, by simpa using List.find?_some h, rfl⟩
  · next h => exact .inr ⟨by simpa using h, rfl⟩

/-- Each row's command has the row's code and the operands it is given. -/
theorem commandTable_row : ∀ row ∈ commandTable, ∀ (a2 a3 : Byte) (p : List Byte),
    commandByte (row.2 a2 a3 p) = row.1 ∧ operands (row.2 a2 a3 p) = (a2, a3, p) ∧ fallbackUnlisted (row.2 a2 a3 p) = true := by
  simp [commandTable, commandByte, operands, fallbackUnlisted]

theorem commandTable_codes : commandTable.map Prod.fst = commandCodes := rfl

theorem operands_decodeFrame (f : Frame) : operands (decodeFrame f) = (f.a2, f.a3, f.p) := by
  obtain ⟨row, hm, -, he⟩ | ⟨-, he⟩ := decodeFrame_cases f
  · rw [he]; exact (commandTable_row row hm _ _ _).2.1
  · rw [he]; rfl

/-- No command byte is lost or changed by the decoder (R55). -/
theorem commandByte_decodeFrame (f : Frame) : commandByte (decodeFrame f) = f.cmd := by
  obtain ⟨row, hm, hc, he⟩ | ⟨-, he⟩ := decodeFrame_cases f
  · rw [he, (commandTable_row row hm _ _ _).1, hc]
  · rw [he]; rfl

theorem fallbackUnlisted_decodeFrame (f : Frame) : fallbackUnlisted (decodeFrame f) = true := by
  obtain ⟨row, hm, -, he⟩ | ⟨hn, he⟩ := decodeFrame_cases f
  · rw [he]; exact (commandTable_row row hm _ _ _).2.2
  · rw [he, fallbackUnlisted, ← commandTable_codes]
    simpa using fun mk hm => hn (f.cmd, mk) hm rfl

/-- The bytes between the second start marker and the end marker of what a frame decodes to. -/
theorem frameBody_decodeFrame (f : Frame) : frameBody (decodeFrame f) = f.a2 :: f.a3 :: f.cmd :: f.p := by
  simp [frameBody, operands_decodeFrame, commandByte_decodeFrame]

/-- `decode` answers an instruction exactly for the lengths a buffer can have (R52). -/
theorem decode_ok_iff (bytes : List Byte) (i : Instr) :
    decode bytes = .ok i ↔
      Config.minFrame ≤ bytes.length ∧ bytes.length ≤ Config.rxCap ∧ decodeFrame (frameOfBuffer bytes bytes.length) = i := by
  simp only [decode, Config.minFrame, Config.rxCap]
  split_ifs with h1 h2
  · simp; omega
  · simp; omega
  · simp only [Except.ok.injEq]
    constructor
    · intro h; exact ⟨by omega, by omega, h⟩
    · exact fun h => h.2.2

/-- The receiver's fields depend on the first `len` bytes of the buffer alone (R87). -/
theorem frameOfBuffer_take (buf : List Byte) (len : Nat) (h : Config.minFrame ≤ len) :
    frameOfBuffer (buf.take len) len = frameOfBuffer buf len := by
  simp only [Config.minFrame] at h
  have h2 : 2 < len := by omega
  have h3 : 3 < len := by omega
  have h4 : 4 < len := by omega
  simp [frameOfBuffer, h2, h3, h4, List.take_take]

/-- The fields of an encoded instruction's own bytes. -/
theorem frameOfBuffer_encode (i : Instr) :
    frameOfBuffer (encode i) (encode i).length = ⟨(operands i).1, (operands i).2.1, commandByte i, (operands i).2.2⟩ := by
  simp [frameOfBuffer, encode, frameBody]

end Sys2Proof
end

