-- ==== Sys2Proof/Laws/State.lean ====
section
/-! SUPPORT. What each named update of State does to each field: one lemma per field per update, true by definition. -/

namespace Sys2Proof.Machine

/-! ### `State.emit` -/

@[simp] theorem State.emit_vfo (s : State) (e : Event) : (s.emit e).vfo = s.vfo := rfl
@[simp] theorem State.emit_cur (s : State) (e : Event) : (s.emit e).cur = s.cur := rfl
@[simp] theorem State.emit_chg (s : State) (e : Event) : (s.emit e).chg = s.chg := rfl
@[simp] theorem State.emit_rxbuf (s : State) (e : Event) : (s.emit e).rxbuf = s.rxbuf := rfl
@[simp] theorem State.emit_rxidx (s : State) (e : Event) : (s.emit e).rxidx = s.rxidx := rfl
@[simp] theorem State.emit_q (s : State) (e : Event) : (s.emit e).q = s.q := rfl
@[simp] theorem State.emit_qh (s : State) (e : Event) : (s.emit e).qh = s.qh := rfl
@[simp] theorem State.emit_qn (s : State) (e : Event) : (s.emit e).qn = s.qn := rfl
@[simp] theorem State.emit_init (s : State) (e : Event) : (s.emit e).init = s.init := rfl
@[simp] theorem State.emit_script (s : State) (e : Event) : (s.emit e).script = s.script := rfl
@[simp] theorem State.emit_rssiNext (s : State) (e : Event) : (s.emit e).rssiNext = s.rssiNext := rfl
@[simp] theorem State.emit_rssiDraws (s : State) (e : Event) : (s.emit e).rssiDraws = s.rssiDraws := rfl
@[simp] theorem State.emit_out (s : State) (e : Event) : (s.emit e).out = s.out ++ [e] := rfl

/-! ### `State.setChannel` -/

@[simp] theorem State.setChannel_vfo (s : State) (c : Channel) : (s.setChannel c).vfo = s.vfo.set s.cur c := rfl
@[simp] theorem State.setChannel_cur (s : State) (c : Channel) : (s.setChannel c).cur = s.cur := rfl
@[simp] theorem State.setChannel_chg (s : State) (c : Channel) : (s.setChannel c).chg = s.chg := rfl
@[simp] theorem State.setChannel_rxbuf (s : State) (c : Channel) : (s.setChannel c).rxbuf = s.rxbuf := rfl
@[simp] theorem State.setChannel_rxidx (s : State) (c : Channel) : (s.setChannel c).rxidx = s.rxidx := rfl
@[simp] theorem State.setChannel_q (s : State) (c : Channel) : (s.setChannel c).q = s.q := rfl
@[simp] theorem State.setChannel_qh (s : State) (c : Channel) : (s.setChannel c).qh = s.qh := rfl
@[simp] theorem State.setChannel_qn (s : State) (c : Channel) : (s.setChannel c).qn = s.qn := rfl
@[simp] theorem State.setChannel_init (s : State) (c : Channel) : (s.setChannel c).init = s.init := rfl
@[simp] theorem State.setChannel_script (s : State) (c : Channel) : (s.setChannel c).script = s.script := rfl
@[simp] theorem State.setChannel_rssiNext (s : State) (c : Channel) : (s.setChannel c).rssiNext = s.rssiNext := rfl
@[simp] theorem State.setChannel_rssiDraws (s : State) (c : Channel) : (s.setChannel c).rssiDraws = s.rssiDraws := rfl
@[simp] theorem State.setChannel_out (s : State) (c : Channel) : (s.setChannel c).out = s.out := rfl

/-! ### `State.push` -/

@[simp] theorem State.push_vfo (s : State) (m : Message) : (s.push m).vfo = s.vfo := rfl
@[simp] theorem State.push_cur (s : State) (m : Message) : (s.push m).cur = s.cur := rfl
@[simp] theorem State.push_chg (s : State) (m : Message) : (s.push m).chg = s.chg := rfl
@[simp] theorem State.push_rxbuf (s : State) (m : Message) : (s.push m).rxbuf = s.rxbuf := rfl
@[simp] theorem State.push_rxidx (s : State) (m : Message) : (s.push m).rxidx = s.rxidx := rfl
@[simp] theorem State.push_q (s : State) (m : Message) : (s.push m).q = s.q.set s.tailSlot m := rfl
@[simp] theorem State.push_qh (s : State) (m : Message) : (s.push m).qh = s.qh := rfl
@[simp] theorem State.push_qn (s : State) (m : Message) : (s.push m).qn = s.qn + 1 := rfl
@[simp] theorem State.push_init (s : State) (m : Message) : (s.push m).init = s.init := rfl
@[simp] theorem State.push_script (s : State) (m : Message) : (s.push m).script = s.script := rfl
@[simp] theorem State.push_rssiNext (s : State) (m : Message) : (s.push m).rssiNext = s.rssiNext := rfl
@[simp] theorem State.push_rssiDraws (s : State) (m : Message) : (s.push m).rssiDraws = s.rssiDraws := rfl
@[simp] theorem State.push_out (s : State) (m : Message) : (s.push m).out = s.out := rfl

/-! ### `State.pop` -/

@[simp] theorem State.pop_vfo (s : State) : s.pop.vfo = s.vfo := rfl
@[simp] theorem State.pop_cur (s : State) : s.pop.cur = s.cur := rfl
@[simp] theorem State.pop_chg (s : State) : s.pop.chg = s.chg := rfl
@[simp] theorem State.pop_rxbuf (s : State) : s.pop.rxbuf = s.rxbuf := rfl
@[simp] theorem State.pop_rxidx (s : State) : s.pop.rxidx = s.rxidx := rfl
@[simp] theorem State.pop_q (s : State) : s.pop.q = s.q := rfl
@[simp] theorem State.pop_qh (s : State) : s.pop.qh = (s.qh + 1) % Config.qCap := rfl
@[simp] theorem State.pop_qn (s : State) : s.pop.qn = s.qn - 1 := rfl
@[simp] theorem State.pop_init (s : State) : s.pop.init = s.init := rfl
@[simp] theorem State.pop_script (s : State) : s.pop.script = s.script := rfl
@[simp] theorem State.pop_rssiNext (s : State) : s.pop.rssiNext = s.rssiNext := rfl
@[simp] theorem State.pop_rssiDraws (s : State) : s.pop.rssiDraws = s.rssiDraws := rfl
@[simp] theorem State.pop_out (s : State) : s.pop.out = s.out := rfl

/-! ### `State.rssiUsed` -/

@[simp] theorem State.rssiUsed_vfo (s : State) : s.rssiUsed.vfo = s.vfo := rfl
@[simp] theorem State.rssiUsed_cur (s : State) : s.rssiUsed.cur = s.cur := rfl
@[simp] theorem State.rssiUsed_chg (s : State) : s.rssiUsed.chg = s.chg := rfl
@[simp] theorem State.rssiUsed_rxbuf (s : State) : s.rssiUsed.rxbuf = s.rxbuf := rfl
@[simp] theorem State.rssiUsed_rxidx (s : State) : s.rssiUsed.rxidx = s.rxidx := rfl
@[simp] theorem State.rssiUsed_q (s : State) : s.rssiUsed.q = s.q := rfl
@[simp] theorem State.rssiUsed_qh (s : State) : s.rssiUsed.qh = s.qh := rfl
@[simp] theorem State.rssiUsed_qn (s : State) : s.rssiUsed.qn = s.qn := rfl
@[simp] theorem State.rssiUsed_init (s : State) : s.rssiUsed.init = s.init := rfl
@[simp] theorem State.rssiUsed_script (s : State) : s.rssiUsed.script = s.script := rfl
@[simp] theorem State.rssiUsed_rssiNext (s : State) : s.rssiUsed.rssiNext = none := rfl
@[simp] theorem State.rssiUsed_rssiDraws (s : State) : s.rssiUsed.rssiDraws = s.rssiDraws + 1 := rfl
@[simp] theorem State.rssiUsed_out (s : State) : s.rssiUsed.out = s.out := rfl

/-! ### `State.setFlag` -/

@[simp] theorem State.setFlag_vfo (s : State) (f : ChangeFlag) : (s.setFlag f).vfo = s.vfo := rfl
@[simp] theorem State.setFlag_cur (s : State) (f : ChangeFlag) : (s.setFlag f).cur = s.cur := rfl
@[simp] theorem State.setFlag_chg (s : State) (f : ChangeFlag) : (s.setFlag f).chg = s.chg ||| (1#8 <<< flagBit f) := rfl
@[simp] theorem State.setFlag_rxbuf (s : State) (f : ChangeFlag) : (s.setFlag f).rxbuf = s.rxbuf := rfl
@[simp] theorem State.setFlag_rxidx (s : State) (f : ChangeFlag) : (s.setFlag f).rxidx = s.rxidx := rfl
@[simp] theorem State.setFlag_q (s : State) (f : ChangeFlag) : (s.setFlag f).q = s.q := rfl
@[simp] theorem State.setFlag_qh (s : State) (f : ChangeFlag) : (s.setFlag f).qh = s.qh := rfl
@[simp] theorem State.setFlag_qn (s : State) (f : ChangeFlag) : (s.setFlag f).qn = s.qn := rfl
@[simp] theorem State.setFlag_init (s : State) (f : ChangeFlag) : (s.setFlag f).init = s.init := rfl
@[simp] theorem State.setFlag_script (s : State) (f : ChangeFlag) : (s.setFlag f).script = s.script := rfl
@[simp] theorem State.setFlag_rssiNext (s : State) (f : ChangeFlag) : (s.setFlag f).rssiNext = s.rssiNext := rfl
@[simp] theorem State.setFlag_rssiDraws (s : State) (f : ChangeFlag) : (s.setFlag f).rssiDraws = s.rssiDraws := rfl
@[simp] theorem State.setFlag_out (s : State) (f : ChangeFlag) : (s.setFlag f).out = s.out := rfl

/-! ### `State.clearFlags` -/

@[simp] theorem State.clearFlags_vfo (s : State) : s.clearFlags.vfo = s.vfo := rfl
@[simp] theorem State.clearFlags_cur (s : State) : s.clearFlags.cur = s.cur := rfl
@[simp] theorem State.clearFlags_chg (s : State) : s.clearFlags.chg = 0 := rfl
@[simp] theorem State.clearFlags_rxbuf (s : State) : s.clearFlags.rxbuf = s.rxbuf := rfl
@[simp] theorem State.clearFlags_rxidx (s : State) : s.clearFlags.rxidx = s.rxidx := rfl
@[simp] theorem State.clearFlags_q (s : State) : s.clearFlags.q = s.q := rfl
@[simp] theorem State.clearFlags_qh (s : State) : s.clearFlags.qh = s.qh := rfl
@[simp] theorem State.clearFlags_qn (s : State) : s.clearFlags.qn = s.qn := rfl
@[simp] theorem State.clearFlags_init (s : State) : s.clearFlags.init = s.init := rfl
@[simp] theorem State.clearFlags_script (s : State) : s.clearFlags.script = s.script := rfl
@[simp] theorem State.clearFlags_rssiNext (s : State) : s.clearFlags.rssiNext = s.rssiNext := rfl
@[simp] theorem State.clearFlags_rssiDraws (s : State) : s.clearFlags.rssiDraws = s.rssiDraws := rfl
@[simp] theorem State.clearFlags_out (s : State) : s.clearFlags.out = s.out := rfl

/-! ### `State.rxClear` -/

@[simp] theorem State.rxClear_vfo (s : State) : s.rxClear.vfo = s.vfo := rfl
@[simp] theorem State.rxClear_cur (s : State) : s.rxClear.cur = s.cur := rfl
@[simp] theorem State.rxClear_chg (s : State) : s.rxClear.chg = s.chg := rfl
@[simp] theorem State.rxClear_rxbuf (s : State) : s.rxClear.rxbuf = s.rxbuf := rfl
@[simp] theorem State.rxClear_rxidx (s : State) : s.rxClear.rxidx = 0 := rfl
@[simp] theorem State.rxClear_q (s : State) : s.rxClear.q = s.q := rfl
@[simp] theorem State.rxClear_qh (s : State) : s.rxClear.qh = s.qh := rfl
@[simp] theorem State.rxClear_qn (s : State) : s.rxClear.qn = s.qn := rfl
@[simp] theorem State.rxClear_init (s : State) : s.rxClear.init = s.init := rfl
@[simp] theorem State.rxClear_script (s : State) : s.rxClear.script = s.script := rfl
@[simp] theorem State.rxClear_rssiNext (s : State) : s.rxClear.rssiNext = s.rssiNext := rfl
@[simp] theorem State.rxClear_rssiDraws (s : State) : s.rxClear.rssiDraws = s.rssiDraws := rfl
@[simp] theorem State.rxClear_out (s : State) : s.rxClear.out = s.out := rfl

/-! ### `State.resetWith` -/

@[simp] theorem State.resetWith_vfo (init : List Channel) : (State.resetWith init).vfo = init := rfl
@[simp] theorem State.resetWith_cur (init : List Channel) : (State.resetWith init).cur = 0 := rfl
@[simp] theorem State.resetWith_chg (init : List Channel) : (State.resetWith init).chg = 0 := rfl
@[simp] theorem State.resetWith_rxbuf (init : List Channel) : (State.resetWith init).rxbuf = List.replicate Config.rxCap 0 := rfl
@[simp] theorem State.resetWith_rxidx (init : List Channel) : (State.resetWith init).rxidx = 0 := rfl
@[simp] theorem State.resetWith_q (init : List Channel) : (State.resetWith init).q = List.replicate Config.qCap blankMessage := rfl
@[simp] theorem State.resetWith_qh (init : List Channel) : (State.resetWith init).qh = 0 := rfl
@[simp] theorem State.resetWith_qn (init : List Channel) : (State.resetWith init).qn = 0 := rfl
@[simp] theorem State.resetWith_init (init : List Channel) : (State.resetWith init).init = init := rfl
@[simp] theorem State.resetWith_script (init : List Channel) : (State.resetWith init).script = [] := rfl
@[simp] theorem State.resetWith_rssiNext (init : List Channel) : (State.resetWith init).rssiNext = none := rfl
@[simp] theorem State.resetWith_rssiDraws (init : List Channel) : (State.resetWith init).rssiDraws = 0 := rfl
@[simp] theorem State.resetWith_out (init : List Channel) : (State.resetWith init).out = [] := rfl

end Sys2Proof.Machine
end

