-- ==== Sys2Proof/Laws/Ops.lean ====
section
/-! SUPPORT. One lemma for each shared operation of Machine/Ops.lean, Flags.lean, Getters.lean and Setters.lean that says what it can
do, and the inversion lemma of `exec`. -/

namespace Sys2Proof.Machine

/-! ### The current channel -/

theorem State.channel_of_get {s : State} {c : Channel} (h : s.vfo[s.cur]? = some c) : s.channel = c := by
  simp [State.channel, List.getD, h]

/-- Writing the current record leaves every other one (R13). -/
theorem State.setChannel_other (s : State) (c : Channel) {v : Nat} (h : v ≠ s.cur) :
    (s.setChannel c).vfo[v]? = s.vfo[v]? := by
  simp [List.getElem?_set_ne (Ne.symm h)]

/-- A record that keeps STAT keeps every channel's STAT (R20, R21). -/
theorem State.setChannel_stat (s : State) (c : Channel) (h : c.stat = s.channel.stat) :
    (s.setChannel c).vfo.map Channel.stat = s.vfo.map Channel.stat := by
  apply List.ext_getElem?
  intro v
  simp only [State.setChannel_vfo, List.getElem?_map]
  by_cases hv : v = s.cur
  · subst hv
    by_cases hl : s.cur < s.vfo.length
    · simp [List.getElem?_set_self hl, h, State.channel, List.getD, List.getElem?_eq_getElem hl]
    · simp [hl]
  · rw [List.getElem?_set_ne (Ne.symm hv)]

/-! ### The queue -/

theorem State.enqueue_of_room {s : State} (m : Message) (h : s.qn < Config.qCap) : s.enqueue m = s.push m := if_pos h

theorem State.enqueue_of_full {s : State} (m : Message) (h : ¬ s.qn < Config.qCap) : s.enqueue m = s.diag .queueFull :=
  if_neg h

/-- All that `enqueue` can do (R126, R127). -/
theorem State.enqueue_cases (s : State) (m : Message) :
    (s.qn < Config.qCap ∧ s.enqueue m = s.push m) ∨ (¬ s.qn < Config.qCap ∧ s.enqueue m = s.diag .queueFull) := by
  by_cases h : s.qn < Config.qCap
  · exact .inl ⟨h, s.enqueue_of_room m h⟩
  · exact .inr ⟨h, s.enqueue_of_full m h⟩

theorem State.length_pending (s : State) : s.pending.length = s.qn := by simp [State.pending]

theorem State.getElem_pending (s : State) {k : Nat} (h : k < s.pending.length) :
    s.pending[k] = s.q.getD ((s.qh + k) % Config.qCap) blankMessage := by simp [State.pending]

/-- The queued messages are those of any state with the same slots, head and count. -/
theorem State.pending_congr {s t : State} (hq : t.q = s.q) (hh : t.qh = s.qh) (hn : t.qn = s.qn) : t.pending = s.pending := by
  simp [State.pending, hq, hh, hn]

/-- An accepted message joins the tail, and the ones before it stay as they are (R126, R131). -/
theorem State.pending_push {s : State} (m : Message) (hq : s.q.length = Config.qCap) (hn : s.qn < Config.qCap) :
    (s.push m).pending = s.pending ++ [m] := by
  simp only [State.pending, State.push_qn, List.range_succ, List.map_append, List.map_cons, List.map_nil, State.push_q,
    State.push_qh, State.tailSlot, Config.qCap] at *
  congr 1
  · apply List.map_congr_left
    intro k hk
    have hk' : k < s.qn := List.mem_range.mp hk
    have hne : (s.qh + s.qn) % 10 ≠ (s.qh + k) % 10 := by omega
    simp [List.getD, List.getElem?_set_ne hne]
  · have hlt : (s.qh + s.qn) % 10 < s.q.length := by omega
    simp [List.getD, List.getElem?_set_self hlt]

/-- Taking the head off leaves the rest of the queue (R128, R131). -/
theorem State.pending_pop {s : State} (hn : s.qn ≠ 0) : s.pending = s.q.getD (s.qh % Config.qCap) blankMessage :: s.pop.pending := by
  obtain ⟨n, hn'⟩ : ∃ n, s.qn = n + 1 := ⟨s.qn - 1, by omega⟩
  simp only [State.pending, State.pop_qn, State.pop_qh, State.pop_q, hn', Nat.add_sub_cancel, List.range_succ_eq_map,
    List.map_cons, List.map_map, Nat.add_zero]
  congr 1
  apply List.map_congr_left
  intro k _
  simp only [Function.comp, Config.qCap, Nat.succ_eq_add_one]
  congr 1
  omega

/-! ### The shapes of a command's effect -/

theorem answer_eq (a2 a3 c : Byte) (payload : List Byte) (s : State) :
    answer a2 a3 c payload s = .next (s.enqueue (reply a2 a3 c payload)) := rfl

theorem setScalar_nil (f : Channel → Byte → Channel) (flag : ChangeFlag) (s : State) :
    setScalar [] f flag s = .next (s.diag .setPayloadShort) := rfl

theorem setScalar_cons (x : Byte) (extra : List Byte) (f : Channel → Byte → Channel) (flag : ChangeFlag) (s : State) :
    setScalar (x :: extra) f flag s = .next ((s.setChannel (f s.channel x)).setFlag flag) := rfl

/-- A setter's write: at most the one field that the flag stands for differs (R23, R114). -/
inductive FieldWrite (c : Channel) : ChangeFlag → Channel → Prop where
  | freq (x : BitVec 34) : FieldWrite c .freq { c with freq := x }
  | mode (x : Byte) : FieldWrite c .mode { c with mode := x }
  | sql (x : Byte) : FieldWrite c .sql { c with sql := x }
  | gain (x : Byte) : FieldWrite c .gain { c with gain := x }
  | bw (x : Byte) : FieldWrite c .bw { c with bw := x }
  | txp (x : Byte) : FieldWrite c .txp { c with txp := x }

/-- A setter's write keeps STAT (R20). -/
theorem FieldWrite.stat {c c' : Channel} {f : ChangeFlag} (h : FieldWrite c f c') : c'.stat = c.stat := by
  cases h <;> rfl

/-- What a command can do to the state (R114): note something, set the monitor flag alone, write one field of the current channel
and set its flag, or enqueue a reply, GET_RSSI after using up its sample. -/
inductive CommandEffect (i : Instr) (s : State) : State → Prop where
  | note (c : DiagCode) (h : c ∈ [DiagCode.cmdUnrecognized, .cmdUnimplemented, .setPayloadShort]) : CommandEffect i s (s.diag c)
  | flag : CommandEffect i s (s.setFlag .mon)
  | write (c : Channel) (f : ChangeFlag) (h : FieldWrite s.channel f c) : CommandEffect i s ((s.setChannel c).setFlag f)
  | reply (payload : List Byte) (h : payload.length = 1 ∨ payload.length = 2 ∨ payload.length = 5) :
      CommandEffect i s (s.enqueue (reply (operands i).1 (operands i).2.1 (commandByte i) payload))
  | sample (payload : List Byte) (h : payload.length = 2) (hc : commandByte i = 0x19) :
      CommandEffect i s (s.rssiUsed.enqueue (reply (operands i).1 (operands i).2.1 (commandByte i) payload))

theorem length_bcdFill (n y : Nat) (filled : List Byte) : (bcdFill n y filled).length = n + filled.length := by
  induction n generalizing y filled with
  | zero => simp [bcdFill]
  | succ n ih => simp [bcdFill, ih]; omega

theorem length_bcdEncode (x : Nat) : (bcdEncode x).length = 5 := by simp [bcdEncode, length_bcdFill]

/-- The effect of a one-byte setter. -/
theorem setScalar_effect (i : Instr) (p : List Byte) (f : Channel → Byte → Channel) (flag : ChangeFlag) (s : State)
    (h : ∀ c x, FieldWrite c flag (f c x)) : ∃ t, setScalar p f flag s = .next t ∧ CommandEffect i s t := by
  cases p with
  | nil => exact ⟨_, rfl, .note _ (by simp)⟩
  | cons x extra => exact ⟨_, rfl, .write _ _ (h _ _)⟩

/-- Every command completes, with one of the effects of `CommandEffect` (R114, R143). -/
theorem exec_effect (i : Instr) (s : State) : ∃ t, exec i s = .next t ∧ CommandEffect i s t := by
  cases i with
  | getFrequency a2 a3 p => exact ⟨_, rfl, .reply _ (by simp [length_bcdEncode])⟩
  | setFrequency a2 a3 p =>
    simp only [exec, execSetFrequency]
    split
    · exact ⟨_, rfl, .write _ _ (.freq _)⟩
    · exact ⟨_, rfl, .note _ (by simp)⟩
  | setMode a2 a3 p => exact setScalar_effect _ p (fun c x => { c with mode := x }) .mode s (fun _ => .mode)
  | setSquelch a2 a3 p => exact setScalar_effect _ p (fun c x => { c with sql := x }) .sql s (fun _ => .sql)
  | getSquelch a2 a3 p => exact ⟨_, rfl, .reply _ (by simp)⟩
  | setAgc a2 a3 p => exact ⟨_, rfl, .note _ (by simp)⟩
  | setStep17 a2 a3 p => exact ⟨_, rfl, .note _ (by simp)⟩
  | setScan a2 a3 p => exact ⟨_, rfl, .note _ (by simp)⟩
  | getRssi a2 a3 p => exact ⟨_, rfl, .sample _ (by simp [le16]) rfl⟩
  | setMonitor a2 a3 p => exact ⟨_, rfl, .flag⟩
  | setRfGain a2 a3 p => exact setScalar_effect _ p (fun c x => { c with gain := x }) .gain s (fun _ => .gain)
  | getRfGain a2 a3 p => exact ⟨_, rfl, .reply _ (by simp)⟩
  | setBandwidth a2 a3 p => exact setScalar_effect _ p (fun c x => { c with bw := x }) .bw s (fun _ => .bw)
  | getBandwidth a2 a3 p => exact ⟨_, rfl, .reply _ (by simp)⟩
  | setTxPower a2 a3 p => exact setScalar_effect _ p (fun c x => { c with txp := x }) .txp s (fun _ => .txp)
  | getTxPower a2 a3 p => exact ⟨_, rfl, .reply _ (by simp)⟩
  | getStatus a2 a3 p => exact ⟨_, rfl, .reply _ (by simp [le16])⟩
  | setStep23 a2 a3 p => exact ⟨_, rfl, .note _ (by simp)⟩
  | getStep a2 a3 p => exact ⟨_, rfl, .note _ (by simp)⟩
  | unrecognized a2 a3 cmd p => exact ⟨_, rfl, .note _ (by simp)⟩

/-- The inversion lemma of `exec`: a next state is one of the effects. -/
theorem exec_cases {i : Instr} {s t : State} (h : exec i s = .next t) : CommandEffect i s t := by
  obtain ⟨t', h', he⟩ := exec_effect i s
  rw [h] at h'
  cases h'
  exact he

end Sys2Proof.Machine
end

