-- ==== Sys2Proof/Laws/Receiver.lean ====
section
/-! SUPPORT. What each step of RX_BYTE can do (spec/41_frame_receiver.md R74 to R81). -/

namespace Sys2Proof.Machine

theorem rxStore_room {b : Byte} {s : State} (h : s.rxidx < 32) :
    rxStore b s = { s with rxbuf := s.rxbuf.set s.rxidx b, rxidx := s.rxidx + 1 } := if_pos h

theorem rxStore_full {b : Byte} {s : State} (h : ¬ s.rxidx < 32) : rxStore b s = s.diag .rxOverflowDrop := if_neg h

/-- The last two bytes are the start-marker pair exactly when both can be read and are start markers (R76). -/
theorem endsInStartPair_iff (s : State) :
    endsInStartPair s = true ↔
      2 ≤ s.rxidx ∧ s.rxbuf[s.rxidx - 2]? = some Config.startMarker ∧ s.rxbuf[s.rxidx - 1]? = some Config.startMarker := by
  have key : ∀ k, (s.rxbuf.getD k 0 == Config.startMarker) = true ↔ s.rxbuf[k]? = some Config.startMarker := by
    intro k
    cases h : s.rxbuf[k]? <;> simp [List.getD, h]
  rw [endsInStartPair, Bool.and_eq_true, Bool.and_eq_true, key, key, decide_eq_true_iff, and_assoc]

theorem rxResync_pair {s : State} (h : endsInStartPair s = true) :
    rxResync s = { s with rxbuf := (s.rxbuf.set 0 Config.startMarker).set 1 Config.startMarker, rxidx := 2 } := if_pos h

theorem rxResync_none {s : State} (h : endsInStartPair s ≠ true) : rxResync s = s := if_neg h

/-- A byte other than the start marker never ends a pair once it is stored (R76, R85). -/
theorem rxStore_no_pair {b : Byte} {s : State} (h : s.rxidx < 32) (hb : b ≠ Config.startMarker) :
    endsInStartPair (rxStore b s) ≠ true := by
  rw [Ne, endsInStartPair_iff, rxStore_room h]
  rintro ⟨-, -, h2⟩
  simp only [Nat.add_sub_cancel] at h2
  by_cases hl : s.rxidx < s.rxbuf.length
  · rw [List.getElem?_set_self hl] at h2
    exact hb (Option.some.inj h2)
  · rw [List.getElem?_eq_none (by simpa using hl)] at h2
    cases h2

/-- The stored byte ends a pair exactly when it and the byte before it are start markers (R76). -/
theorem rxStore_pair_iff {b : Byte} {s : State} (h : s.rxidx < 32) (hl : s.rxbuf.length = 32) :
    endsInStartPair (rxStore b s) = true ↔
      b = Config.startMarker ∧ 1 ≤ s.rxidx ∧ s.rxbuf[s.rxidx - 1]? = some Config.startMarker := by
  rw [endsInStartPair_iff, rxStore_room h]
  simp only [Nat.add_sub_cancel]
  rw [List.getElem?_set_self (by omega)]
  constructor
  · rintro ⟨h1, h2, h3⟩
    rw [List.getElem?_set_ne (by omega), show s.rxidx + 1 - 2 = s.rxidx - 1 by omega] at h2
    exact ⟨Option.some.inj h3, by omega, h2⟩
  · rintro ⟨rfl, h1, h2⟩
    refine ⟨by omega, ?_, rfl⟩
    rw [List.getElem?_set_ne (by omega), show s.rxidx + 1 - 2 = s.rxidx - 1 by omega]
    exact h2

theorem rxByte_other {b : Byte} (h : b ≠ Config.endMarker) (s : State) : rxByte b s = .next (rxResync (rxStore b s)) :=
  if_neg h

theorem rxByte_end (s : State) : rxByte Config.endMarker s = rxFinish (rxResync (rxStore Config.endMarker s)) := if_pos rfl

/-- An end marker that finds room is stored, and ends no pair (R85). -/
theorem rxByte_end_room {s : State} (h : s.rxidx < 32) :
    rxByte Config.endMarker s =
      rxFinish { s with rxbuf := s.rxbuf.set s.rxidx Config.endMarker, rxidx := s.rxidx + 1 } := by
  rw [rxByte_end, rxResync_none (rxStore_no_pair h (by decide)), rxStore_room h]

theorem rxFinish_complete {s : State} (h : 6 ≤ s.rxidx) :
    rxFinish s = exec (decodeFrame (frameOfBuffer s.rxbuf s.rxidx)) s.rxClear := if_pos h

theorem rxFinish_short {s : State} (h : ¬ 6 ≤ s.rxidx) : rxFinish s = .next (s.diag .rxShortFrame).rxClear := if_neg h

/-- Step 1 and step 2 touch only the receiver and the diag stream. -/
theorem rxResync_rxStore_frame (b : Byte) (s : State) :
    ∃ (buf : List Byte) (idx : Nat) (codes : List DiagCode),
      rxResync (rxStore b s) = { s with rxbuf := buf, rxidx := idx, out := s.out ++ codes.map .diag } ∧
      (codes = [] ∨ (codes = [.rxOverflowDrop] ∧ ¬ s.rxidx < 32)) := by
  by_cases hr : s.rxidx < 32
  · by_cases hp : endsInStartPair (rxStore b s) = true
    · exact ⟨_, _, [], by rw [rxResync_pair hp, rxStore_room hr, List.map_nil, List.append_nil], .inl rfl⟩
    · exact ⟨_, _, [], by rw [rxResync_none hp, rxStore_room hr, List.map_nil, List.append_nil], .inl rfl⟩
  · by_cases hp : endsInStartPair (rxStore b s) = true
    · exact ⟨_, _, [.rxOverflowDrop], by rw [rxResync_pair hp, rxStore_full hr]; rfl, .inr ⟨rfl, hr⟩⟩
    · exact ⟨s.rxbuf, s.rxidx, [.rxOverflowDrop], by rw [rxResync_none hp, rxStore_full hr]; rfl, .inr ⟨rfl, hr⟩⟩

/-- All that RX_BYTE can do: take the byte in, or, at an end marker, discard a short frame or run a command on the state with an empty
buffer. -/
theorem rxByte_cases (b : Byte) (s : State) :
    (b ≠ Config.endMarker ∧ rxByte b s = .next (rxResync (rxStore b s))) ∨
    (b = Config.endMarker ∧ ¬ 6 ≤ (rxResync (rxStore b s)).rxidx ∧
      rxByte b s = .next ((rxResync (rxStore b s)).diag .rxShortFrame).rxClear) ∨
    (b = Config.endMarker ∧ 6 ≤ (rxResync (rxStore b s)).rxidx ∧ ∃ i,
      i = decodeFrame (frameOfBuffer (rxResync (rxStore b s)).rxbuf (rxResync (rxStore b s)).rxidx) ∧
      rxByte b s = exec i (rxResync (rxStore b s)).rxClear) := by
  by_cases hb : b = Config.endMarker
  · subst hb
    by_cases h6 : 6 ≤ (rxResync (rxStore Config.endMarker s)).rxidx
    · exact .inr (.inr ⟨rfl, h6, _, rfl, by rw [rxByte_end, rxFinish_complete h6]⟩)
    · exact .inr (.inl ⟨rfl, h6, by rw [rxByte_end, rxFinish_short h6]⟩)
  · exact .inl ⟨hb, rxByte_other hb s⟩

end Sys2Proof.Machine
end

