-- ==== Sys2Proof/Laws/Inv.lean ====
section
/-! SUPPORT. The invariant taken apart and put together once, and what it says of the receiver. -/

namespace Sys2Proof

/-- No start-marker pair stands at any two adjacent positions. -/
theorem noStartPair_iff (l : List Byte) :
    noStartPair l = true ↔ ∀ k, ¬ (l[k]? = some Config.startMarker ∧ l[k + 1]? = some Config.startMarker) := by
  induction l with
  | nil => simp [noStartPair]
  | cons a l ih =>
    cases l with
    | nil => simp [noStartPair]
    | cons b r =>
      have head : (!(a == Config.startMarker && b == Config.startMarker)) = true ↔
          ¬ ((a :: b :: r)[0]? = some Config.startMarker ∧ (a :: b :: r)[0 + 1]? = some Config.startMarker) := by
        simp; tauto
      simp only [noStartPair, Bool.and_eq_true, ih]
      rw [head]
      refine ⟨fun h k => ?_, fun h => ⟨h 0, fun k => h (k + 1)⟩⟩
      cases k with
      | zero => exact h.1
      | succ k => exact h.2 k

/-- Dropping the first byte makes no start-marker pair. -/
theorem noStartPair_tail {a : Byte} {l : List Byte} (h : noStartPair (a :: l) = true) : noStartPair l = true := by
  rw [noStartPair_iff] at h ⊢
  exact fun k => h (k + 1)

namespace Machine

/-- The invariant, clause by clause. -/
theorem inv_iff (s : State) : Safety.Inv s = true ↔
    s.vfo.length = s.init.length ∧ s.cur < s.vfo.length ∧ s.chg.getLsbD 7 = false ∧ s.rxbuf.length = 32 ∧ s.rxidx ≤ 32 ∧
      s.q.length = 10 ∧ s.qh < 10 ∧ s.qn ≤ 10 ∧ (∀ m ∈ s.q, Safety.legalMessage m = true) ∧
      Safety.legalPartial (s.rxbuf.take s.rxidx) = true := by
  simp only [Safety.Inv, Bool.and_eq_true, beq_iff_eq, decide_eq_true_eq, Bool.not_eq_true', List.all_eq_true, and_assoc]

/-- R86: a full buffer never ends in a start-marker pair. -/
theorem not_endsInStartPair_of_full {s : State} (h : Safety.Inv s = true) (hr : ¬ s.rxidx < 32) : endsInStartPair s ≠ true := by
  obtain ⟨-, -, -, -, hle, -, -, -, -, hpart⟩ := (inv_iff s).1 h
  have full : s.rxidx = 32 := by omega
  rw [Ne, endsInStartPair_iff, full]
  rintro ⟨-, h30, h31⟩
  simp only [Safety.legalPartial, Bool.and_eq_true, noStartPair_iff] at hpart
  exact hpart.2 29 (by rw [full]; exact ⟨by simpa using h30, by simpa using h31⟩)

/-- R81: a command touches neither RXIDX nor RXBUF. -/
theorem exec_receiver {i : Instr} {s t : State} (h : exec i s = .next t) : t.rxidx = s.rxidx ∧ t.rxbuf = s.rxbuf := by
  cases exec_cases h with
  | note c h => exact ⟨rfl, rfl⟩
  | flag => exact ⟨rfl, rfl⟩
  | write c f h => exact ⟨rfl, rfl⟩
  | reply p _ =>
    obtain ⟨_, he⟩ | ⟨_, he⟩ := s.enqueue_cases (reply (operands i).1 (operands i).2.1 (commandByte i) p) <;> rw [he] <;>
      exact ⟨rfl, rfl⟩
  | sample p _ _ =>
    obtain ⟨_, he⟩ | ⟨_, he⟩ := s.rssiUsed.enqueue_cases (reply (operands i).1 (operands i).2.1 (commandByte i) p) <;> rw [he] <;>
      exact ⟨rfl, rfl⟩

/-- R23: setting one of the seven flags leaves bit 7 clear. -/
theorem setFlag_bit7 {s : State} (f : ChangeFlag) (h : s.chg.getLsbD 7 = false) : (s.setFlag f).chg.getLsbD 7 = false := by
  show (s.chg ||| (1#8 <<< flagBit f)).getLsbD 7 = false
  rw [BitVec.getLsbD_or, h]
  cases f <;> decide

/-- R122: a reply with a payload of one, two or five bytes is a legal message. -/
theorem legalMessage_reply (a2 a3 c : Byte) {p : List Byte} (h : p.length = 1 ∨ p.length = 2 ∨ p.length = 5) :
    Safety.legalMessage (reply a2 a3 c p) = true := by
  rcases h with h | h | h <;> simp [Safety.legalMessage, reply, h]

end Machine

end Sys2Proof
end

