-- ==== Sys2Proof/Laws/PerInstr.lean ====
section
/-! SUPPORT. The per-instruction family FrameLength: the bytes of an instruction whose payload fits make a frame the receiver can hold
whole, 6 to 32 bytes (spec/30_encoding.md R52, R53), with its command byte at position 4 (R51). -/

namespace Sys2Proof.Laws.FrameLength

open Sys2Proof

/-- The frame of a well-formed instruction has a legal length and its command byte at position 4. -/
def Statement (i : Instr) : Prop :=
  i.wf = true → 6 ≤ (encode i).length ∧ (encode i).length ≤ 32 ∧ (encode i)[4]? = some (commandByte i)

theorem of_any (i : Instr) : Statement i := by
  intro h
  simp only [Instr.wf, payloadFits, Bool.and_eq_true, decide_eq_true_eq, Config.payloadMax, Config.rxCap, Config.minFrame] at h
  rw [length_encode]
  refine ⟨by simp, ?_, by simp [encode, frameBody]⟩
  simp only [Config.minFrame]
  omega

theorem getFrequency (a2 a3 : Byte) (p : List Byte) : Statement (.getFrequency a2 a3 p) := of_any _

theorem setFrequency (a2 a3 : Byte) (p : List Byte) : Statement (.setFrequency a2 a3 p) := of_any _

theorem setMode (a2 a3 : Byte) (p : List Byte) : Statement (.setMode a2 a3 p) := of_any _

theorem setSquelch (a2 a3 : Byte) (p : List Byte) : Statement (.setSquelch a2 a3 p) := of_any _

theorem getSquelch (a2 a3 : Byte) (p : List Byte) : Statement (.getSquelch a2 a3 p) := of_any _

theorem setAgc (a2 a3 : Byte) (p : List Byte) : Statement (.setAgc a2 a3 p) := of_any _

theorem setStep17 (a2 a3 : Byte) (p : List Byte) : Statement (.setStep17 a2 a3 p) := of_any _

theorem setScan (a2 a3 : Byte) (p : List Byte) : Statement (.setScan a2 a3 p) := of_any _

theorem getRssi (a2 a3 : Byte) (p : List Byte) : Statement (.getRssi a2 a3 p) := of_any _

theorem setMonitor (a2 a3 : Byte) (p : List Byte) : Statement (.setMonitor a2 a3 p) := of_any _

theorem setRfGain (a2 a3 : Byte) (p : List Byte) : Statement (.setRfGain a2 a3 p) := of_any _

theorem getRfGain (a2 a3 : Byte) (p : List Byte) : Statement (.getRfGain a2 a3 p) := of_any _

theorem setBandwidth (a2 a3 : Byte) (p : List Byte) : Statement (.setBandwidth a2 a3 p) := of_any _

theorem getBandwidth (a2 a3 : Byte) (p : List Byte) : Statement (.getBandwidth a2 a3 p) := of_any _

theorem setTxPower (a2 a3 : Byte) (p : List Byte) : Statement (.setTxPower a2 a3 p) := of_any _

theorem getTxPower (a2 a3 : Byte) (p : List Byte) : Statement (.getTxPower a2 a3 p) := of_any _

theorem getStatus (a2 a3 : Byte) (p : List Byte) : Statement (.getStatus a2 a3 p) := of_any _

theorem setStep23 (a2 a3 : Byte) (p : List Byte) : Statement (.setStep23 a2 a3 p) := of_any _

theorem getStep (a2 a3 : Byte) (p : List Byte) : Statement (.getStep a2 a3 p) := of_any _

theorem unrecognized (a2 a3 cmd : Byte) (p : List Byte) : Statement (.unrecognized a2 a3 cmd p) := of_any _

end Sys2Proof.Laws.FrameLength
end

