-- ==== Sys2Proof/Laws/Step.lean ====
section
/-! SUPPORT. What `step` and each operation can do (spec/45_host_interface.md R133, R142). -/

namespace Sys2Proof.Machine

theorem step_none {s : State} (h : s.script = []) : step s = .fault .noOperation := by
  simp [step, performNext, h]

theorem step_some {s : State} {op : Op} {rest : List Op} (h : s.script = op :: rest) :
    step s = perform op { s with script := rest } := by
  simp [step, performNext, h]

/-- A step that answers a next state performed the operation at the head of the script. -/
theorem step_next_head {s t : State} (h : step s = .next t) :
    ∃ op rest, s.script = op :: rest ∧ perform op { s with script := rest } = .next t := by
  cases hs : s.script with
  | nil => rw [step_none hs] at h; cases h
  | cons op rest => exact ⟨op, rest, rfl, by rw [← step_some hs]; exact h⟩

/-- A run of one step more goes through the next state. -/
theorem core_run_next (M : Host.Core) {s t : M.State} {n : Nat} (h : M.step s = .next t) : M.run (n + 1) s = M.run n t := by
  rw [Host.Core.run, h]

/-- All that DRAIN can do (R128 to R130). -/
theorem drain_cases {space : Int} {s t : State} (h : drain space s = .next t) :
    0 ≤ space ∧
    ((s.qn = 0 ∧ t = s) ∨
     (s.qn ≠ 0 ∧ (s.headMessage.len : Int) ≤ space ∧
        t = s.pop.emit (.txWrite (s.headMessage.data.take s.headMessage.len))) ∨
     (s.qn ≠ 0 ∧ ¬ (s.headMessage.len : Int) ≤ space ∧ t = s.pop.diag .txSpaceDrop)) := by
  simp only [drain] at h
  split_ifs at h with h1 h2 h3 <;> cases h
  · exact ⟨by omega, .inl ⟨h2, rfl⟩⟩
  · exact ⟨by omega, .inr (.inl ⟨h2, h3, rfl⟩)⟩
  · exact ⟨by omega, .inr (.inr ⟨h2, h3, rfl⟩)⟩

/-- All that READ_FIELD can do (R135). -/
theorem readField_cases {v : Nat} {f : BitVec 3} {s t : State} (h : readField v f s = .next t) :
    ∃ c field, s.vfo[v]? = some c ∧ selectField f = some field ∧ t = s.emit (.fieldRead (readChannel c field)) := by
  simp only [readField] at h
  split at h <;> cases h
  exact ⟨_, _, ‹_›, ‹_›, rfl⟩

/-- All that INJECT can do (R137). -/
theorem inject_cases {v x : Nat} {f : BitVec 3} {s t : State} (h : inject v f x s = .next t) :
    ∃ c field, s.vfo[v]? = some c ∧ selectField f = some field ∧ x < 2 ^ fieldWidth field ∧
      t = { s with vfo := s.vfo.set v (writeChannel c field x) } := by
  simp only [inject] at h
  split at h
  · cases h
  · cases h
  · split at h <;> cases h
    exact ⟨_, _, ‹_›, ‹_›, ‹_›, rfl⟩

/-- INJECT of a value that fits (R137). -/
theorem inject_of_fits {v x : Nat} {f : BitVec 3} {s : State} {c : Channel} {field : Field} (hv : s.vfo[v]? = some c)
    (hf : selectField f = some field) (hx : x < 2 ^ fieldWidth field) :
    inject v f x s = .next { s with vfo := s.vfo.set v (writeChannel c field x) } := by
  simp [inject, hv, hf, hx]

/-- INJECT of a value too wide for its field (R142). -/
theorem inject_of_wide {v x : Nat} {f : BitVec 3} {s : State} {c : Channel} {field : Field} (hv : s.vfo[v]? = some c)
    (hf : selectField f = some field) (hx : ¬ x < 2 ^ fieldWidth field) : inject v f x s = .refused .valueTooWide := by
  simp [inject, hv, hf, hx]

/-- All that SELECT_VFO can do (R138). -/
theorem selectVfo_cases {v : Nat} {s t : State} (h : selectVfo v s = .next t) : v < s.vfo.length ∧ t = { s with cur := v } := by
  simp only [selectVfo] at h
  split at h <;> cases h
  exact ⟨‹_›, rfl⟩

/-- A selector names a field exactly when it is not 7 (R41). -/
theorem selectField_none_iff (f : BitVec 3) : selectField f = none ↔ f = 7 := by
  revert f; decide

/-- A field that fits is what is read back (R135, R137). -/
theorem readChannel_writeChannel (c : Channel) (field : Field) {x : Nat} (h : x < 2 ^ fieldWidth field) :
    readChannel (writeChannel c field x) field = x := by
  cases field <;> simpa [readChannel, writeChannel, fieldWidth] using h

end Sys2Proof.Machine
end

