-- ==== Sys2Proof/Tests/Slice0.lean ====
section
/-! SUPPORT. The model's own tests. Every expected result is taken from spec/95_test_vectors.md or worked out by hand from the rule
named; each is about one operation or one step on a small state. The last part gives, for every obligation with hypotheses, a
concrete state and operands that meet them all. -/

namespace Sys2Proof.Tests

open Sys2Proof Sys2Proof.Machine Sys2Proof.Claims

/-! ## Helpers -/

/-- The next state of an outcome, if it has one. -/
def nextOf : Host.Outcome State Fault Refusal → Option State
  | .next s => some s
  | .fault _ => none
  | .refused _ => none

/-- The name an outcome is refused under, if it is. -/
def refusalOf : Host.Outcome State Fault Refusal → Option Refusal
  | .next _ => none
  | .fault _ => none
  | .refused r => some r

/-- The bytes decode to the instruction. -/
def reads (bytes : List Byte) (i : Instr) : Bool :=
  match decode bytes with
  | .ok j => j == i
  | .error _ => false

/-- The standard start state S0 of the spec with channel 0 replaced. -/
def withChannel (c : Channel) : State := { State.reset with vfo := [c, zeroChannel] }

/-- S0 with these operations to come. -/
def offered (ops : List Op) (s : State) : State := { s with script := ops }

/-- The state with these bytes as its partial frame. -/
def holding (bytes : List Byte) (s : State) : State :=
  { s with rxbuf := bytes ++ s.rxbuf.drop bytes.length, rxidx := bytes.length }

/-- The state with a full queue. -/
def crowded (s : State) : State := { s with qn := 10 }

/-- The state with the end marker of a frame to come, and the rest of the frame held. -/
def atEndMarker (bytes : List Byte) (s : State) : State := offered [.rxByte 0xFD] (holding bytes s)

/-- The queued messages' bytes after one step, oldest first. -/
def queuedAfter (s : State) : Option (List (List Byte)) :=
  (nextOf (step s)).map (fun t => t.pending.map (fun m => m.data.take m.len))

/-- What one step puts out. -/
def outAfter (s : State) : Option (List Event) := (nextOf (step s)).map State.out

/-- The record of channel `v` after one step. -/
def channelAfter (v : Nat) (s : State) : Option Channel := (nextOf (step s)).bind (fun t => t.vfo[v]?)

/-- CHG after one step. -/
def flagsAfter (s : State) : Option Byte := (nextOf (step s)).map State.chg

/-- RXIDX after one step. -/
def indexAfter (s : State) : Option Nat := (nextOf (step s)).map State.rxidx

/-! ## Well-formedness: each check refuses an ill-formed term -/

theorem test_wf_accepts_longest_payload : (Instr.setFrequency 0 0 (List.replicate 26 0)).wf = true := by decide
theorem test_wf_refuses_longer_payload : (Instr.setFrequency 0 0 (List.replicate 27 0)).wf = false := by decide
theorem test_wf_refuses_listed_fallback : (Instr.unrecognized 0 0 0x24 []).wf = false := by decide
theorem test_wf_accepts_unlisted_fallback : (Instr.unrecognized 0 0 0x1B []).wf = true := by decide
theorem test_framable_refuses_end_marker : (Instr.setSquelch 0x00 0xE0 [0xFD]).framable = false := by decide
theorem test_framable_refuses_start_pair : (Instr.setMode 0x00 0xE0 [0xFE, 0xFE]).framable = false := by decide
theorem test_framable_refuses_start_address : (Instr.getFrequency 0xFE 0xE0 []).framable = false := by decide
theorem test_framable_accepts_single_start : (Instr.setSquelch 0x00 0xE0 [0xFE]).framable = true := by decide

/-! ## Decoding: every constructor from a word written out from R51 and R55 (the frames are those of W9 and V-DISP) -/

theorem test_decode_getFrequency : reads [0xFE, 0xFE, 0x00, 0xE0, 0x03, 0xFD] (.getFrequency 0x00 0xE0 []) = true := by decide
theorem test_decode_setFrequency : reads [0xFE, 0xFE, 0x00, 0xE0, 0x05, 0x01, 0x45, 0x00, 0x00, 0x00, 0xFD]
    (.setFrequency 0x00 0xE0 [0x01, 0x45, 0x00, 0x00, 0x00]) = true := by decide
theorem test_decode_setMode : reads [0xFE, 0xFE, 0x00, 0xE0, 0x06, 0x05, 0xFD] (.setMode 0x00 0xE0 [0x05]) = true := by decide
theorem test_decode_setSquelch : reads [0xFE, 0xFE, 0x00, 0xE0, 0x14, 0x80, 0xFD] (.setSquelch 0x00 0xE0 [0x80]) = true := by
  decide
theorem test_decode_getSquelch : reads [0xFE, 0xFE, 0x00, 0xE0, 0x15, 0x11, 0x22, 0xFD] (.getSquelch 0x00 0xE0 [0x11, 0x22]) = true := by
  decide
theorem test_decode_setAgc : reads [0xFE, 0xFE, 0x00, 0xE0, 0x16, 0x01, 0xFD] (.setAgc 0x00 0xE0 [0x01]) = true := by decide
theorem test_decode_setStep17 : reads [0xFE, 0xFE, 0x00, 0xE0, 0x17, 0x05, 0xFD] (.setStep17 0x00 0xE0 [0x05]) = true := by decide
theorem test_decode_setScan : reads [0xFE, 0xFE, 0x00, 0xE0, 0x18, 0x01, 0xFD] (.setScan 0x00 0xE0 [0x01]) = true := by decide
theorem test_decode_getRssi : reads [0xFE, 0xFE, 0x00, 0xE0, 0x19, 0xFD] (.getRssi 0x00 0xE0 []) = true := by decide
theorem test_decode_setMonitor : reads [0xFE, 0xFE, 0x00, 0xE0, 0x1A, 0xFD] (.setMonitor 0x00 0xE0 []) = true := by decide
theorem test_decode_setRfGain : reads [0xFE, 0xFE, 0x00, 0xE0, 0x1C, 0x40, 0xFD] (.setRfGain 0x00 0xE0 [0x40]) = true := by decide
theorem test_decode_getRfGain : reads [0xFE, 0xFE, 0x00, 0xE0, 0x1D, 0xFD] (.getRfGain 0x00 0xE0 []) = true := by decide
theorem test_decode_setBandwidth : reads [0xFE, 0xFE, 0x00, 0xE0, 0x1E, 0x02, 0xFD] (.setBandwidth 0x00 0xE0 [0x02]) = true := by
  decide
theorem test_decode_getBandwidth : reads [0xFE, 0xFE, 0x00, 0xE0, 0x1F, 0xFD] (.getBandwidth 0x00 0xE0 []) = true := by decide
theorem test_decode_setTxPower : reads [0xFE, 0xFE, 0x00, 0xE0, 0x20, 0x64, 0xFD] (.setTxPower 0x00 0xE0 [0x64]) = true := by decide
theorem test_decode_getTxPower : reads [0xFE, 0xFE, 0x00, 0xE0, 0x21, 0xFD] (.getTxPower 0x00 0xE0 []) = true := by decide
theorem test_decode_getStatus : reads [0xFE, 0xFE, 0x00, 0xE0, 0x22, 0xFD] (.getStatus 0x00 0xE0 []) = true := by decide
theorem test_decode_setStep23 : reads [0xFE, 0xFE, 0x00, 0xE0, 0x23, 0x05, 0xFD] (.setStep23 0x00 0xE0 [0x05]) = true := by decide
theorem test_decode_getStep : reads [0xFE, 0xFE, 0x00, 0xE0, 0x24, 0xFD] (.getStep 0x00 0xE0 []) = true := by decide
theorem test_decode_unrecognized : reads [0xFE, 0xFE, 0x00, 0xE0, 0xFF, 0x01, 0x02, 0x03, 0xFD]
    (.unrecognized 0x00 0xE0 0xFF [0x01, 0x02, 0x03]) = true := by decide

/-- DV28 to DV31: codes beside the listed ones. -/
theorem test_decode_gaps : ([0x00, 0x04, 0x1B, 0x25] : List Byte).all
    (fun c => reads [0xFE, 0xFE, 0x00, 0xE0, c, 0xFD] (.unrecognized 0x00 0xE0 c [])) = true := by decide

/-- R54, R82, X7: the bytes at positions 0, 1 and L-1 are not looked at, and the addresses are taken by position. -/
theorem test_decode_ignores_marker_positions :
    reads [0x11, 0x22, 0x33, 0x44, 0x55, 0x66, 0x77] (.unrecognized 0x33 0x44 0x55 [0x66]) = true := by decide

/-- R52: five bytes are no frame, and neither are 33. -/
theorem test_decode_rejects_by_name :
    decode [0xFE, 0xFE, 0x00, 0x03, 0xFD] = .error .tooShort ∧ decode (List.replicate 33 0) = .error .tooLong := ⟨rfl, rfl⟩

/-- R62, W5: the bytes of a command are written out in frame order. -/
theorem test_encode_setFrequency : encode (.setFrequency 0x00 0xE0 (bcdEncode 145000000)) =
    [0xFE, 0xFE, 0x00, 0xE0, 0x05, 0x01, 0x45, 0x00, 0x00, 0x00, 0xFD] := by decide

/-- R63: the decimal operand of the pseudo-instructions and its bounds. -/
theorem test_pseudo_operands : setFrequencyDecimal 0x00 0xE0 7074000 = some (.setFrequency 0x00 0xE0 [0x00, 0x07, 0x07, 0x40, 0x00])
    ∧ setFrequencyDecimal 0x00 0xE0 (10 ^ 10) = none ∧ scalarDecimal 255 = some [0xFF] ∧ scalarDecimal 256 = none := by decide

/-! ## The BCD codec (V-BCD) -/

theorem test_bcd_decode_digits : bcdDecode [0x12, 0x34, 0x56, 0x78, 0x90] = 1234567890 := by decide
theorem test_bcd_decode_no_swap : bcdDecode [0x01, 0x45, 0x00, 0x00, 0x00] = 145000000 := by decide
theorem test_bcd_decode_invalid_digits : bcdDecode [0xA0, 0x00, 0x00, 0x00, 0x00] = 10000000000
    ∧ bcdDecode [0x00, 0x00, 0x00, 0x00, 0x0F] = 15 ∧ bcdDecode [0x00, 0x00, 0x00, 0x00, 0xF0] = 150 := by decide
theorem test_bcd_decode_maximum : bcdDecode [0xFF, 0xFF, 0xFF, 0xFF, 0xFF] = 16666666665 := by decide
theorem test_bcd_encode_pairs : bcdEncode 7074000 = [0x00, 0x07, 0x07, 0x40, 0x00] := by decide
theorem test_bcd_encode_drops_digits : bcdEncode 12345678901 = [0x23, 0x45, 0x67, 0x89, 0x01]
    ∧ bcdEncode 16666666665 = [0x66, 0x66, 0x66, 0x66, 0x65] := by decide

/-! ## The commands, each by the step that brings its end marker (W9, V-DISP, V-ENC) -/

theorem test_getFrequency_ev2 :
    queuedAfter (atEndMarker [0xFE, 0xFE, 0xE0, 0x00, 0x03] (withChannel { zeroChannel with freq := 145000000 })) =
      some [[0xFE, 0xFE, 0xE0, 0x00, 0x03, 0x01, 0x45, 0x00, 0x00, 0x00, 0xFD]] := by decide
theorem test_getFrequency_ev3 :
    queuedAfter (atEndMarker [0xFE, 0xFE, 0x00, 0xE0, 0x03] (withChannel { zeroChannel with freq := 10000000000 })) =
      some [[0xFE, 0xFE, 0x00, 0xE0, 0x03, 0x00, 0x00, 0x00, 0x00, 0x00, 0xFD]] := by decide
theorem test_setFrequency_dv4 :
    (channelAfter 0 (atEndMarker [0xFE, 0xFE, 0x00, 0xE0, 0x05, 0xFF, 0xFF, 0xFF, 0xFF, 0xFF] State.reset)).map Channel.freq =
      some 16666666665 := by decide
theorem test_setFrequency_dv2 :
    nextOf (exec (.setFrequency 0x00 0xE0 [0x01, 0x45, 0x00, 0x00]) State.reset) =
      some { State.reset with out := [.diag .setPayloadShort] } := by decide
theorem test_setMode_dv8 :
    let s := atEndMarker [0xFE, 0xFE, 0x00, 0xE0, 0x06, 0x03, 0x01] State.reset
    channelAfter 0 s = some { zeroChannel with mode := 0x03 } ∧ flagsAfter s = some 0x02 := by decide
theorem test_setMode_dv7 : outAfter (atEndMarker [0xFE, 0xFE, 0x00, 0xE0, 0x06] State.reset) = some [.diag .setPayloadShort] := by
  decide
theorem test_setSquelch_dv9 :
    let s := atEndMarker [0xFE, 0xFE, 0x00, 0xE0, 0x14, 0xFE] State.reset
    channelAfter 0 s = some { zeroChannel with sql := 0xFE } ∧ flagsAfter s = some 0x04 := by decide
theorem test_getSquelch_ev4 :
    queuedAfter (atEndMarker [0xFE, 0xFE, 0x00, 0xE0, 0x15] (withChannel { zeroChannel with sql := 0xFD })) =
      some [[0xFE, 0xFE, 0x00, 0xE0, 0x15, 0xFD, 0xFD]] := by decide
theorem test_setAgc_dv12 : outAfter (atEndMarker [0xFE, 0xFE, 0x00, 0xE0, 0x16, 0x01] State.reset) =
    some [.diag .cmdUnimplemented] := by decide
theorem test_setStep17_dv13 : outAfter (atEndMarker [0xFE, 0xFE, 0x00, 0xE0, 0x17, 0x05] State.reset) =
    some [.diag .cmdUnimplemented] := by decide
theorem test_setScan_dv14 : outAfter (atEndMarker [0xFE, 0xFE, 0x00, 0xE0, 0x18, 0x01] State.reset) =
    some [.diag .cmdUnimplemented] := by decide
theorem test_getRssi_dv15 :
    queuedAfter (atEndMarker [0xFE, 0xFE, 0x00, 0xE0, 0x19] { State.reset with rssiNext := some 0x0123 }) =
      some [[0xFE, 0xFE, 0x00, 0xE0, 0x19, 0x23, 0x01, 0xFD]] := by decide
theorem test_setMonitor_dv18 :
    let s := atEndMarker [0xFE, 0xFE, 0x00, 0xE0, 0x1A, 0x01] State.reset
    channelAfter 0 s = some zeroChannel ∧ flagsAfter s = some 0x40 := by decide
theorem test_setRfGain_dv20 :
    let s := atEndMarker [0xFE, 0xFE, 0x00, 0xE0, 0x1C, 0x40] State.reset
    channelAfter 0 s = some { zeroChannel with gain := 0x40 } ∧ flagsAfter s = some 0x08 := by decide
theorem test_getRfGain_dv20 :
    queuedAfter (atEndMarker [0xFE, 0xFE, 0x00, 0xE0, 0x1D] (withChannel { zeroChannel with gain := 0x40 })) =
      some [[0xFE, 0xFE, 0x00, 0xE0, 0x1D, 0x40, 0xFD]] := by decide
theorem test_setBandwidth_dv22 :
    let s := atEndMarker [0xFE, 0xFE, 0x00, 0xE0, 0x1E, 0x02] State.reset
    channelAfter 0 s = some { zeroChannel with bw := 0x02 } ∧ flagsAfter s = some 0x10 := by decide
theorem test_getBandwidth_dv22 :
    queuedAfter (atEndMarker [0xFE, 0xFE, 0x00, 0xE0, 0x1F] (withChannel { zeroChannel with bw := 0x02 })) =
      some [[0xFE, 0xFE, 0x00, 0xE0, 0x1F, 0x02, 0xFD]] := by decide
theorem test_setTxPower_dv24 :
    let s := atEndMarker [0xFE, 0xFE, 0x00, 0xE0, 0x20, 0x64] State.reset
    channelAfter 0 s = some { zeroChannel with txp := 0x64 } ∧ flagsAfter s = some 0x20 := by decide
theorem test_getTxPower_dv24 :
    queuedAfter (atEndMarker [0xFE, 0xFE, 0x00, 0xE0, 0x21] (withChannel { zeroChannel with txp := 0x64 })) =
      some [[0xFE, 0xFE, 0x00, 0xE0, 0x21, 0x64, 0xFD]] := by decide
theorem test_getStatus_dv25 :
    queuedAfter (atEndMarker [0xFE, 0xFE, 0x00, 0xE0, 0x22] (withChannel { zeroChannel with stat := 0xA55A })) =
      some [[0xFE, 0xFE, 0x00, 0xE0, 0x22, 0x5A, 0xA5, 0xFD]] := by decide
theorem test_setStep23_dv26 : outAfter (atEndMarker [0xFE, 0xFE, 0x00, 0xE0, 0x23, 0x05] State.reset) =
    some [.diag .cmdUnimplemented] := by decide
theorem test_getStep_dv27 : outAfter (atEndMarker [0xFE, 0xFE, 0x00, 0xE0, 0x24] State.reset) =
    some [.diag .cmdUnimplemented] := by decide
theorem test_unrecognized_w8 :
    nextOf (exec (.unrecognized 0x00 0xE0 0xFF []) { withChannel { zeroChannel with sql := 0x80 } with chg := 0x04 }) =
      some { withChannel { zeroChannel with sql := 0x80 } with chg := 0x04, out := [.diag .cmdUnrecognized] } := by decide

/-- DV33: a full queue drops the reply. -/
theorem test_full_queue_dv33 : nextOf (exec (.getFrequency 0x00 0xE0 []) (crowded State.reset)) =
    some { crowded State.reset with out := [.diag .queueFull] } := by decide

/-- DV34: a full queue does not affect a setter. -/
theorem test_full_queue_dv34 :
    let s := atEndMarker [0xFE, 0xFE, 0x00, 0xE0, 0x05, 0x01, 0x45, 0x00, 0x00, 0x00] (crowded State.reset)
    (channelAfter 0 s).map Channel.freq = some 145000000 ∧ flagsAfter s = some 0x01 := by decide

/-- W6: flags are OR'd together. -/
theorem test_flags_accumulate_w6 :
    flagsAfter (atEndMarker [0xFE, 0xFE, 0x00, 0xE0, 0x14, 0x80] { State.reset with chg := 0x01 }) = some 0x05 := by decide

/-- The example of R126: with QN = 3 and QH = 8 the message goes to slot 1. -/
theorem test_queue_wraps_r126 :
    (nextOf (exec (.getSquelch 0x00 0xE0 []) { State.reset with qh := 8, qn := 3 })).map (fun t => (t.q[1]?, t.qn)) =
      some (some ⟨7, [0xFE, 0xFE, 0x00, 0xE0, 0x15, 0x00, 0xFD]⟩, 4) := by decide

/-! ## The receiver (V-RX) -/

/-- W3, byte 5: the second start-marker pair discards what came before it, with no diag event. -/
theorem test_resync_w3 :
    let s := offered [.rxByte 0xFE] (holding [0xFE, 0xFE, 0xAA, 0xFE] State.reset)
    indexAfter s = some 2 ∧ outAfter s = some [] := by decide

/-- X4: with the buffer resynchronised by the third start marker, the end marker makes L = 5. -/
theorem test_short_frame_x4 :
    let s := atEndMarker [0xFE, 0xFE, 0xE0, 0x03] State.reset
    indexAfter s = some 0 ∧ outAfter s = some [.diag .rxShortFrame] := by decide

/-- W4: an end marker in state Idle. -/
theorem test_idle_end_marker_w4 : outAfter (atEndMarker [] State.reset) = some [.diag .rxShortFrame] := by decide

/-- X8: a buffer that began with no start marker is dispatched, and the reply starts with the pair. -/
theorem test_no_start_markers_x8 : queuedAfter (atEndMarker [0x00, 0x00, 0x00, 0xE0, 0x15] State.reset) =
    some [[0xFE, 0xFE, 0x00, 0xE0, 0x15, 0x00, 0xFD]] := by decide

/-- X11: the longest frame, its end marker stored at position 31. -/
theorem test_longest_frame_x11 :
    let s := atEndMarker ([0xFE, 0xFE, 0x00, 0xE0, 0x05, 0x01, 0x45] ++ List.replicate 24 0x00) State.reset
    (channelAfter 0 s).map Channel.freq = some 145000000 ∧ outAfter s = some [] := by decide

/-- X13, the last byte: the buffer is full, the end marker is dropped and dispatches what is held. -/
theorem test_overflow_x13 :
    let s := atEndMarker ([0xFE, 0xFE, 0x00, 0xE0, 0x06] ++ List.replicate 26 0x01 ++ [0x07]) State.reset
    (channelAfter 0 s).map Channel.mode = some 0x01 ∧ outAfter s = some [.diag .rxOverflowDrop] := by decide

/-- X13: byte 31 is not passed on (R84). -/
theorem test_overflow_payload_x13 :
    (frameOfBuffer ([0xFE, 0xFE, 0x00, 0xE0, 0x06] ++ List.replicate 26 0x01 ++ [0x07]) 32).p = List.replicate 26 0x01 := by decide

/-- X15: the second start marker is stored in the last place and resynchronises. -/
theorem test_resync_in_last_place_x15 :
    indexAfter (offered [.rxByte 0xFE] (holding (List.replicate 30 0x00 ++ [0xFE]) State.reset)) = some 2 := by decide

/-- X16: the second start marker is dropped and cannot pair. -/
theorem test_no_resync_when_full_x16 :
    let s := offered [.rxByte 0xFE] (holding (List.replicate 31 0x00 ++ [0xFE]) State.reset)
    indexAfter s = some 32 ∧ outAfter s = some [.diag .rxOverflowDrop] := by decide

/-- X16, the last byte: the drop comes before the dispatch's event (R149). -/
theorem test_order_of_events_x16 : outAfter (atEndMarker (List.replicate 31 0x00 ++ [0xFE]) State.reset) =
    some [.diag .rxOverflowDrop, .diag .cmdUnrecognized] := by decide

/-- X5: a single start marker in command position. -/
theorem test_single_start_marker_x5 :
    indexAfter (offered [.rxByte 0xFE] (holding [0xFE, 0xFE, 0x00, 0xE0] State.reset)) = some 5 := by decide

/-- HV4: the command acts on the channel selected when its end marker arrives. -/
theorem test_target_at_end_marker_hv4 :
    let s := atEndMarker [0xFE, 0xFE, 0x00, 0xE0, 0x14, 0x30] { State.reset with cur := 1 }
    channelAfter 1 s = some { zeroChannel with sql := 0x30 } ∧ channelAfter 0 s = some zeroChannel := by decide

/-! ## The queue's drain and the host's operations (V-Q, V-HOST, V-RST) -/

/-- One 7-byte message at the head. -/
def oneReply : State := State.reset.push (reply 0x00 0xE0 0x15 [0x00])

/-- The example of R128: space equal to the length is enough. -/
theorem test_drain_writes_r128 : nextOf (step (offered [.drain 7] oneReply)) = some { oneReply with
    qh := 1, qn := 0, out := [.txWrite [0xFE, 0xFE, 0x00, 0xE0, 0x15, 0x00, 0xFD]] } := by decide

/-- P3: one byte too few drops the message. -/
theorem test_drain_drops_p3 : nextOf (step (offered [.drain 6] oneReply)) = some { oneReply with
    qh := 1, qn := 0, out := [.diag .txSpaceDrop] } := by decide

theorem test_drain_empty_q1 : nextOf (step (offered [.drain 0] State.reset)) = some State.reset := by decide
theorem test_read_flags_w6 : nextOf (step (offered [.readFlags] { State.reset with chg := 0x05 })) =
    some { State.reset with out := [.flagsRead 0x05] } := by decide
theorem test_read_field_hv2 : outAfter (offered [.readField 0 0] (withChannel { zeroChannel with freq := 145000000 })) =
    some [.fieldRead 145000000] := by decide
theorem test_read_field_hv3 : outAfter (offered [.readField 1 2] { State.reset with
    vfo := [zeroChannel, { zeroChannel with sql := 0x30 }] }) = some [.fieldRead 0x30] := by decide
theorem test_inject_dv25 : nextOf (step (offered [.inject 0 6 0xA55A] State.reset)) =
    some (withChannel { zeroChannel with stat := 0xA55A }) := by decide
theorem test_inject_hv7 : channelAfter 0 (offered [.inject 0 1 100] State.reset) = some { zeroChannel with mode := 0x64 }
    ∧ refusalOf (step (offered [.inject 0 1 256] State.reset)) = some .valueTooWide := by decide
theorem test_inject_hv8 : refusalOf (step (offered [.inject 0 0 17179869184] State.reset)) = some .valueTooWide := by decide
theorem test_select_hv5 : refusalOf (step (offered [.selectVfo 2] State.reset)) = some .channelOutOfRange := by decide
theorem test_read_field_hv6 : refusalOf (step (offered [.readField 0 7] State.reset)) = some .selectorReserved := by decide
theorem test_drain_negative_r142 : refusalOf (step (offered [.drain (-1)] State.reset)) = some .negativeSpace := by decide

/-- T1 and T3: reset loses the flags, the partial frame and the queue, and selects channel 0. -/
theorem test_reset_t1 : nextOf (step (offered [.reset] { holding [0xFE, 0xFE, 0x00] (crowded State.reset) with cur := 1, chg := 0x01 })) =
    some State.reset := by decide

/-- An `RSSI r` line (R64) sets the next sample. -/
theorem test_rssi_line_r64 : nextOf (step (offered [.rssi 0xFDFE] State.reset)) = some { State.reset with rssiNext := some 0xFDFE } := by
  decide

/-- R150: the codes. -/
theorem test_diag_codes_r150 :
    [DiagCode.rxOverflowDrop, .rxShortFrame, .cmdUnrecognized, .cmdUnimplemented, .setPayloadShort, .queueFull, .txSpaceDrop].map
      diagByte = [0x01, 0x02, 0x03, 0x04, 0x05, 0x06, 0x07] := by decide

/-- I20: with no operation offered the machine is stuck, from reset too. -/
theorem test_no_operation_i20 : step State.reset = .fault .noOperation := rfl

/-! ## Table words -/

theorem test_table_word_reads : decodeTableWord 8 0x1A = some (.setMonitor 0 0 (List.replicate 26 0)) := by decide
theorem test_table_word_payload : decodeTableWord 24 0x8014 = some (.setSquelch 0 0 (0x80 :: List.replicate 25 0)) := by decide
theorem test_table_word_too_long : decodeTableWord 217 0 = none := by decide
theorem test_table_word_runs : flagsAfter (State.reset.withFetchWord 8 0x1A) = some 0x40 := by decide
theorem test_table_word_payload_runs :
    (channelAfter 0 (State.reset.withFetchWord 16 0x8014)).map Channel.sql = some 0x80 := by decide

/-! ## Witnesses: for each obligation with hypotheses, a state and operands that meet them all, at the clauses' boundaries -/

/-- Channel 1 of two, with a value in every field. -/
def busyChannel : Channel := ⟨16666666665, 0x01, 0x80, 0x40, 0x02, 0x64, 0xA55A⟩

/-- S0 with channel 1 current. -/
def onChannelOne : State := { State.reset with vfo := [zeroChannel, busyChannel], cur := 1 }

theorem test_witness_BcdDecodeFitsFreqRegister :
    ([0xFF, 0xFF, 0xFF, 0xFF, 0xFF] : List Byte).length = 5 ∧
    ([0x99, 0x99, 0x99, 0x99, 0x99] : List Byte).length = 5 ∧ ∀ b ∈ ([0x99, 0x99, 0x99, 0x99, 0x99] : List Byte), isBcd b := by
  unfold isBcd; decide
theorem test_witness_BcdRoundTripsTenDigits : (9999999999 : Nat) < 10 ^ 10 ∧ (0 : Nat) < 10 ^ 10 := by decide
theorem test_witness_BcdEncodeHoldsNoMarkerByte : (0x99 : Byte) ∈ bcdEncode 9999999999 := by decide
theorem test_witness_BcdReencodesOnlyValidBytes :
    ([0x0A, 0, 0, 0, 0] : List Byte).length = 5 ∧ ¬ (∀ b ∈ ([0x0A, 0, 0, 0, 0] : List Byte), isBcd b) ∧
    ([0x10, 0, 0, 0, 0x99] : List Byte).length = 5 ∧ (∀ b ∈ ([0x10, 0, 0, 0, 0x99] : List Byte), isBcd b) := by
  unfold isBcd; decide

theorem test_witness_DecodeUndoesEncode :
    (Instr.setFrequency 0xFD 0xFE (List.replicate 26 0xFD)).wf = true ∧ (Instr.unrecognized 0 0 0x25 []).wf = true := by decide
theorem test_witness_EncodeUndoesDecode :
    decode [0x11, 0x22, 0x33, 0x44, 0x55, 0x66, 0x77] = .ok (.unrecognized 0x33 0x44 0x55 [0x66]) := rfl

/-- For the seven GETs and the six setters: the current channel exists, with room for exactly one more reply, and with none. -/
theorem test_witness_gets_and_sets :
    onChannelOne.vfo[onChannelOne.cur]? = some busyChannel ∧
    ({ onChannelOne with qn := 9 } : State).qn < 10 ∧ ¬ (crowded onChannelOne).qn < 10 := by decide
theorem test_witness_GetRssiRepliesWithSample :
    (({ State.reset with rssiNext := some 0xFDFE } : State).rssiNext = some 0xFDFE) ∧
    (State.reset.rssiNext = none ∧ Config.rssiIn 0 = Config.rssiIn State.reset.rssiDraws) := ⟨rfl, rfl, rfl⟩
theorem test_witness_SetFrequencyStoresDecodedNumber : ([0x01, 0x45, 0x00, 0x00] : List Byte).length < 5 := by decide

/-- Both sides of the equivalence hold for the first setter and fail for the second. -/
theorem test_witness_ShortPayloadNoteMeansShortSetter :
    (Instr.setFrequency 0 0 [1, 2, 3, 4]).wf = true ∧ (Instr.setFrequency 0 0 [1, 2, 3, 4, 5]).wf = true ∧
    nextOf (exec (.setFrequency 0 0 [1, 2, 3, 4]) State.reset) = some { State.reset with out := [.diag .setPayloadShort] } ∧
    nextOf (exec (.setFrequency 0 0 [1, 2, 3, 4, 5]) State.reset) ≠ some { State.reset with out := [.diag .setPayloadShort] } := by
  decide
theorem test_witness_GettersNeverConsultPayload :
    (Instr.getStatus 1 2 []).wf = true ∧ (Instr.getStatus 1 2 (List.replicate 26 7)).wf = true ∧
    ignoresPayload (commandByte (.getStatus 1 2 [])) := by
  unfold ignoresPayload; decide

/-- One command for each of the four effects, the reply into the last free slot, and a GET_RSSI that finds the queue full. -/
theorem test_witness_CommandsHaveOneEffect :
    (∃ t, exec (.setAgc 0 0 []) onChannelOne = .next t) ∧ (∃ t, exec (.setMonitor 0 0 []) onChannelOne = .next t) ∧
    (∃ t, exec (.setTxPower 0 0 [0x64]) onChannelOne = .next t) ∧
    (∃ t, exec (.getStatus 0 0 []) { onChannelOne with qn := 9 } = .next t) ∧
    (∃ t, exec (.getRssi 0 0 []) (crowded onChannelOne) = .next t) ∧
    onChannelOne.vfo[onChannelOne.cur]? = some busyChannel ∧ commandByte (.getStatus 0 0 []) ≠ 0x19 :=
  ⟨⟨_, rfl⟩, ⟨_, rfl⟩, ⟨_, rfl⟩, ⟨_, rfl⟩, ⟨_, rfl⟩, by decide, by decide⟩
theorem test_witness_RepliesJoinTheTail :
    Safety.Inv { onChannelOne with qn := 9 } = true ∧ ∃ t, exec (.getStatus 0 0 []) { onChannelOne with qn := 9 } = .next t :=
  ⟨by decide, _, rfl⟩

/-- The buffer's last place, and the shortest frame. -/
theorem test_witness_StepRunsTheDecodedInstruction :
    let longest := atEndMarker ([0xFE, 0xFE, 0x00, 0xE0, 0x06] ++ List.replicate 26 0x01) State.reset
    let shortest := atEndMarker [0xFE, 0xFE, 0x00, 0xE0, 0x03] State.reset
    (longest.script = [.rxByte 0xFD] ∧ longest.rxbuf.length = 32 ∧ longest.rxidx = 31 ∧
      reads (longest.rxbuf.take longest.rxidx ++ [0xFD]) (.setMode 0x00 0xE0 (List.replicate 26 0x01)) = true) ∧
    (shortest.script = [.rxByte 0xFD] ∧ shortest.rxbuf.length = 32 ∧ shortest.rxidx < 32 ∧
      reads (shortest.rxbuf.take shortest.rxidx ++ [0xFD]) (.getFrequency 0x00 0xE0 []) = true) := by decide

/-- For both clauses: a byte that is no end marker, and an end marker. -/
theorem test_witness_FullBufferDropsThenDispatches :
    let s := holding ([0xFE, 0xFE, 0x00, 0xE0, 0x06] ++ List.replicate 27 0x01) State.reset
    Safety.Inv (offered [.rxByte 0xFE] s) = true ∧ Safety.Inv (offered [.rxByte 0xFD] s) = true ∧ s.rxidx = 32 ∧
    reads s.rxbuf (.setMode 0x00 0xE0 (List.replicate 26 0x01)) = true := by decide

/-- The first place, and the last one. -/
theorem test_witness_ByteIsStoredWhileRoomRemains :
    let first := offered [.rxByte 0xFE] State.reset
    let last := offered [.rxByte 0xFE] (holding (List.replicate 31 0x00) State.reset)
    (first.rxbuf.length = 32 ∧ first.rxidx = 0) ∧
    (last.rxbuf.length = 32 ∧ last.rxidx = 31 ∧ last.rxbuf[last.rxidx - 1]? ≠ some 0xFE) ∧
    indexAfter first = some 1 ∧ indexAfter last = some 32 := by decide

/-- The pair at the buffer's beginning, and in its last two places. -/
theorem test_witness_StartPairDiscardsWhatCameBefore :
    let first := offered [.rxByte 0xFE] (holding [0xFE] State.reset)
    let last := offered [.rxByte 0xFE] (holding (List.replicate 30 0x00 ++ [0xFE]) State.reset)
    (first.rxbuf.length = 32 ∧ 1 ≤ first.rxidx ∧ first.rxbuf[first.rxidx - 1]? = some 0xFE) ∧
    (last.rxbuf.length = 32 ∧ last.rxidx = 31 ∧ last.rxbuf[last.rxidx - 1]? = some 0xFE) := by decide
theorem test_witness_ShortFrameIsDiscarded :
    (atEndMarker [0xFE, 0xFE, 0x00, 0x03] State.reset).rxidx = 4 ∧ (atEndMarker [] State.reset).rxidx = 0 ∧
    (atEndMarker [] State.reset).script = [.rxByte 0xFD] := by decide
theorem test_witness_EndMarkerAlwaysEmptiesBuffer :
    let s := atEndMarker (List.replicate 32 0x00) State.reset
    s.script = [.rxByte 0xFD] ∧ indexAfter s = some 0 := by decide
theorem test_witness_NoEffectBeforeTheEndMarker :
    (offered [.rxByte 0xFE] State.reset).script = [.rxByte 0xFE] ∧ (0xFE : Byte) ≠ 0xFD := by decide

/-- The longest frame into the fullest buffer that still has room for a start-marker pair. -/
theorem test_witness_ReceivedFrameRunsItsInstruction :
    let i := Instr.setFrequency 0x00 0xE0 (List.replicate 26 0x45)
    let s := offered ((encode i).map .rxByte ++ [.drain 7]) (holding (List.replicate 30 0xFE) State.reset)
    i.wf = true ∧ i.framable = true ∧ s.rxbuf.length = 32 ∧ s.rxidx = 30 ∧
    s.script = (encode i).map .rxByte ++ [.drain 7] := by decide

/-- A frame that began with the pair, one that did not (X8), and two from a full buffer (X13, X16). -/
theorem test_witness_DispatchedFramesHoldNoMarkers :
    let paired := holding [0xFE, 0xFE, 0x00, 0xE0, 0x15] State.reset
    let bare := holding [0x00, 0x00, 0x00, 0xE0, 0x15] State.reset
    let fullPaired := holding ([0xFE, 0xFE, 0x00, 0xE0, 0x06] ++ List.replicate 26 0x01 ++ [0x07]) State.reset
    let fullBare := holding (List.replicate 31 0x00 ++ [0xFE]) State.reset
    (Safety.Inv paired = true ∧ dispatches paired (.getSquelch 0x00 0xE0 []) ∧ paired.rxbuf[1]? = some 0xFE) ∧
    (Safety.Inv bare = true ∧ dispatches bare (.getSquelch 0x00 0xE0 [])) ∧
    (Safety.Inv fullPaired = true ∧ dispatches fullPaired (.setMode 0x00 0xE0 (List.replicate 26 0x01)) ∧
      fullPaired.rxbuf[1]? = some 0xFE) ∧
    (Safety.Inv fullBare = true ∧ dispatches fullBare (.unrecognized 0x00 0x00 0x00 (List.replicate 26 0x00))) :=
  ⟨⟨by decide, .inl ⟨by decide, rfl⟩, by decide⟩, ⟨by decide, .inl ⟨by decide, rfl⟩⟩,
    ⟨by decide, .inr ⟨by decide, rfl⟩, by decide⟩, ⟨by decide, .inr ⟨by decide, rfl⟩⟩⟩
theorem test_witness_StaleBufferBytesAreNeverSeen :
    let s := atEndMarker [0xFE, 0xFE, 0x00, 0xE0, 0x15] State.reset
    s.rxbuf.length = 32 ∧ s.rxidx ≤ 32 ∧ sameUpToStaleBytes s { s with rxbuf := s.rxbuf.set 5 0xFE } ∧
    s.rxbuf ≠ s.rxbuf.set 5 0xFE := by
  unfold sameUpToStaleBytes; decide

/-- For both outcomes: space equal to the length, and one byte less. -/
theorem test_witness_DrainTakesTheOldestMessage :
    Safety.Inv (offered [.drain 7] oneReply) = true ∧ Safety.Inv (offered [.drain 6] oneReply) = true ∧
    (0 : Int) ≤ 6 ∧ oneReply.pending = [⟨7, [0xFE, 0xFE, 0x00, 0xE0, 0x15, 0x00, 0xFD]⟩] := by decide
theorem test_witness_DrainOfEmptyQueueDoesNothing :
    (offered [.drain 0] State.reset).script = [.drain 0] ∧ (0 : Int) ≤ 0 ∧ (offered [.drain 0] State.reset).qn = 0 := by decide

/-- One state for each of the four cases: nothing, one more, one less, and the reset. -/
theorem test_witness_QueuedMessagesAreImmutable :
    (Safety.Inv (offered [.readFlags] oneReply) = true ∧ ∃ t, step (offered [.readFlags] oneReply) = .next t) ∧
    (Safety.Inv (atEndMarker [0xFE, 0xFE, 0x00, 0xE0, 0x03] oneReply) = true ∧
      ∃ t, step (atEndMarker [0xFE, 0xFE, 0x00, 0xE0, 0x03] oneReply) = .next t) ∧
    (Safety.Inv (offered [.drain 7] oneReply) = true ∧ ∃ t, step (offered [.drain 7] oneReply) = .next t) ∧
    (Safety.Inv (offered [.reset] oneReply) = true ∧ ∃ t, step (offered [.reset] oneReply) = .next t) :=
  ⟨⟨by decide, _, rfl⟩, ⟨by decide, _, rfl⟩, ⟨by decide, _, rfl⟩, ⟨by decide, _, rfl⟩⟩

/-- A drain that writes, and a GET into the last free slot. -/
theorem test_witness_QueueConservesMessages :
    let getter := atEndMarker [0xFE, 0xFE, 0x00, 0xE0, 0x03] { State.reset with qn := 9 }
    (Safety.Inv (offered [.drain 7] oneReply) = true ∧ (offered [.drain 7] oneReply).script.head? ≠ some .reset ∧
      ∃ t, step (offered [.drain 7] oneReply) = .next t) ∧
    (Safety.Inv getter = true ∧ getter.script.head? = some (.rxByte 0xFD) ∧ ∃ t, step getter = .next t) :=
  ⟨⟨by decide, by decide, _, rfl⟩, ⟨by decide, by decide, _, rfl⟩⟩

/-- The first and the last selector. -/
theorem test_witness_ReadFieldReturnsTheField :
    onChannelOne.vfo[1]? = some busyChannel ∧ (0 : BitVec 3).toNat < 7 ∧ (6 : BitVec 3).toNat < 7 ∧
    outAfter (offered [.readField 1 0] onChannelOne) = some [.fieldRead 16666666665] ∧
    outAfter (offered [.readField 1 6] onChannelOne) = some [.fieldRead 0xA55A] := by decide
theorem test_witness_ReadFlagsReturnsAndClears :
    (offered [.readFlags] { State.reset with chg := 0x7F }).script = [.readFlags] := by decide

/-- The greatest value of each width, at the first and the last selector of the width. -/
theorem test_witness_InjectWritesOneField :
    State.reset.vfo[1]? = some zeroChannel ∧
    channelAfter 1 (offered [.inject 1 0 (2 ^ 34 - 1)] State.reset) = some { zeroChannel with freq := 17179869183 } ∧
    channelAfter 1 (offered [.inject 1 1 255] State.reset) = some { zeroChannel with mode := 0xFF } ∧
    channelAfter 1 (offered [.inject 1 5 255] State.reset) = some { zeroChannel with txp := 0xFF } ∧
    channelAfter 1 (offered [.inject 1 6 65535] State.reset) = some { zeroChannel with stat := 0xFFFF } := by decide
theorem test_witness_SelectVfoMovesCurOnly :
    (offered [.selectVfo 1] State.reset).script = [.selectVfo 1] ∧ 1 < State.reset.vfo.length := by decide

/-- All three sides: no operation, an illegal argument, a legal one. -/
theorem test_witness_StepStopsOnlyOnIllegalArguments :
    State.reset.script = [] ∧ Safety.legalOp State.reset (.selectVfo 2) = false ∧ Safety.legalOp State.reset (.selectVfo 1) = true ∧
    Safety.legalOp State.reset (.drain (-1)) = false ∧ Safety.legalOp State.reset (.drain 0) = true := by decide

/-- Each clause at the first illegal value. -/
theorem test_witness_IllegalArgumentsAreNamed :
    (-1 : Int) < 0 ∧ State.reset.vfo.length ≤ 2 ∧ 1 < State.reset.vfo.length ∧
    (2 ^ 34 : Nat) ≤ 17179869184 ∧ 1 ≤ (1 : BitVec 3).toNat ∧ (5 : BitVec 3).toNat ≤ 5 ∧ (2 ^ 8 : Nat) ≤ 256 ∧
    (2 ^ 16 : Nat) ≤ 65536 ∧
    refusalOf (step (offered [.selectVfo 2] State.reset)) = some .channelOutOfRange ∧
    refusalOf (step (offered [.readField 2 7] State.reset)) = some .channelOutOfRange ∧
    refusalOf (step (offered [.inject 2 7 0] State.reset)) = some .channelOutOfRange ∧
    refusalOf (step (offered [.inject 1 7 0] State.reset)) = some .selectorReserved ∧
    refusalOf (step (offered [.inject 1 5 256] State.reset)) = some .valueTooWide ∧
    refusalOf (step (offered [.inject 1 6 65536] State.reset)) = some .valueTooWide := by decide
theorem test_witness_ResetGivesTheFirstState :
    (offered [.reset] (crowded onChannelOne)).script = [.reset] ∧ (crowded onChannelOne).init = [zeroChannel, zeroChannel] := by
  decide
theorem test_witness_InvariantHoldsAtReset : ([busyChannel] : List Channel) ≠ [] := by decide
theorem test_witness_EveryStepKeepsTheInvariant :
    let s := atEndMarker ([0xFE, 0xFE, 0x00, 0xE0, 0x05] ++ List.replicate 27 0x99) onChannelOne
    Safety.Inv s = true ∧ ∃ t, step s = .next t := ⟨by decide, _, rfl⟩

/-- The three clauses: a read of flags, a reset, and any other operation with a flag set. -/
theorem test_witness_FlagsAreClearedOnlyAsABatch :
    let s := { State.reset with chg := 0x40 }
    (∃ t, step (offered [.readFlags] s) = .next t) ∧ (∃ t, step (offered [.reset] s) = .next t) ∧
    (∃ t, step (offered [.drain 0] s) = .next t) ∧ (offered [.drain 0] s).script.head? ≠ some .readFlags ∧
    (offered [.drain 0] s).script.head? ≠ some .reset ∧ s.chg.getLsbD 6 = true :=
  ⟨⟨_, rfl⟩, ⟨_, rfl⟩, ⟨_, rfl⟩, by decide, by decide, by decide⟩

/-- An operation that is none of the three. -/
theorem test_witness_CurAndStatMoveOnlyByTheHost :
    let s := atEndMarker [0xFE, 0xFE, 0x00, 0xE0, 0x14, 0x30] onChannelOne
    (∃ t, step s = .next t) ∧ (∀ v, s.script.head? ≠ some (.selectVfo v)) ∧ (∀ v f x, s.script.head? ≠ some (.inject v f x)) ∧
    s.script.head? ≠ some .reset :=
  ⟨⟨_, rfl⟩, fun _ => nofun, fun _ _ _ => nofun, nofun⟩

/-- Two events, and one. -/
theorem test_witness_DiagEventsComeInOrder :
    let two := atEndMarker (List.replicate 32 0x00) State.reset
    let one := atEndMarker [] State.reset
    (Safety.Inv two = true ∧ ∃ t, step two = .next t) ∧ (Safety.Inv one = true ∧ ∃ t, step one = .next t) :=
  ⟨⟨by decide, _, rfl⟩, ⟨by decide, _, rfl⟩⟩

end Sys2Proof.Tests
end

section
/-! SUPPORT. What each operation leaves of CUR, STAT and INIT_STATE (spec/00_scope.md R6, spec/10_state.md R20, R22), and the
proof of O58. -/

namespace Sys2Proof.Machine

/-! ### `State.enqueue` -/

/-- A queued or dropped reply touches no channel (R126, R127). -/
@[simp] theorem State.enqueue_vfo (s : State) (m : Message) : (s.enqueue m).vfo = s.vfo := by
  obtain ⟨_, he⟩ | ⟨_, he⟩ := s.enqueue_cases m <;> rw [he] <;> rfl

@[simp] theorem State.enqueue_cur (s : State) (m : Message) : (s.enqueue m).cur = s.cur := by
  obtain ⟨_, he⟩ | ⟨_, he⟩ := s.enqueue_cases m <;> rw [he] <;> rfl

@[simp] theorem State.enqueue_init (s : State) (m : Message) : (s.enqueue m).init = s.init := by
  obtain ⟨_, he⟩ | ⟨_, he⟩ := s.enqueue_cases m <;> rw [he] <;> rfl

/-! ### What only the host moves -/

/-- From `s` to `t`, nothing moved that only the host may move: INIT_STATE, CUR, and the STAT of every channel. -/
structure HostFieldsKept (s t : State) : Prop where
  init : t.init = s.init
  cur : t.cur = s.cur
  stat : t.vfo.map Channel.stat = s.vfo.map Channel.stat

/-- No command moves them: a setter's write keeps STAT, every other effect keeps the register file. -/
theorem exec_hostFieldsKept {i : Instr} {s t : State} (h : exec i s = .next t) : HostFieldsKept s t := by
  cases exec_cases h with
  | note c _ => exact ⟨rfl, rfl, rfl⟩
  | flag => exact ⟨rfl, rfl, rfl⟩
  | write c f hw => exact ⟨rfl, rfl, s.setChannel_stat c hw.stat⟩
  | reply p _ => exact ⟨by simp, by simp, by simp⟩
  | sample p _ _ => exact ⟨by simp, by simp, by simp⟩

/-- A received byte moves none of them, whether or not it completes a frame. -/
theorem rxByte_hostFieldsKept {b : Byte} {s t : State} (h : rxByte b s = .next t) : HostFieldsKept s t := by
  obtain ⟨buf, idx, codes, hrx, -⟩ := rxResync_rxStore_frame b s
  obtain ⟨-, he⟩ | ⟨-, -, he⟩ | ⟨-, -, i, -, he⟩ := rxByte_cases b s <;> rw [he, hrx] at h
  · cases h; exact ⟨rfl, rfl, rfl⟩
  · cases h; exact ⟨rfl, rfl, rfl⟩
  · obtain ⟨hinit, hcur, hstat⟩ := exec_hostFieldsKept h
    exact ⟨hinit, hcur, hstat⟩

theorem drain_hostFieldsKept {space : Int} {s t : State} (h : drain space s = .next t) : HostFieldsKept s t := by
  obtain ⟨-, ⟨-, rfl⟩ | ⟨-, -, rfl⟩ | ⟨-, -, rfl⟩⟩ := drain_cases h <;> exact ⟨rfl, rfl, rfl⟩

theorem readField_hostFieldsKept {v : Nat} {f : BitVec 3} {s t : State} (h : readField v f s = .next t) :
    HostFieldsKept s t := by
  obtain ⟨c, field, -, -, rfl⟩ := readField_cases h
  exact ⟨rfl, rfl, rfl⟩

/-- Each operation either moves none of them, or is INJECT, SELECT_VFO or RESET: INJECT may move STAT alone, SELECT_VFO CUR alone,
RESET both (R137, R138, R155). -/
theorem perform_hostFields {op : Op} {s t : State} (h : perform op s = .next t) :
    HostFieldsKept s t ∨
    ((∃ v f x, op = .inject v f x) ∧ t.init = s.init ∧ t.cur = s.cur) ∨
    ((∃ v, op = .selectVfo v) ∧ t.init = s.init ∧ t.vfo = s.vfo) ∨
    (op = .reset ∧ t.init = s.init) := by
  cases op with
  | rxByte b => exact .inl (rxByte_hostFieldsKept h)
  | drain space => exact .inl (drain_hostFieldsKept h)
  | readField v f => exact .inl (readField_hostFieldsKept h)
  | readFlags => cases h; exact .inl ⟨rfl, rfl, rfl⟩
  | inject v f x =>
    obtain ⟨c, field, -, -, -, rfl⟩ := inject_cases h
    exact .inr (.inl ⟨⟨v, f, x, rfl⟩, rfl, rfl⟩)
  | selectVfo v =>
    obtain ⟨-, rfl⟩ := selectVfo_cases h
    exact .inr (.inr (.inl ⟨⟨v, rfl⟩, rfl, rfl⟩))
  | reset => cases h; exact .inr (.inr (.inr ⟨rfl, rfl⟩))
  | rssi r => cases h; exact .inl ⟨rfl, rfl, rfl⟩

/-- Settles O58, by what the operation at the head of the script can do. -/
theorem curAndStatMoveOnlyByTheHost : Obligations.CurAndStatMoveOnlyByTheHost := by
  intro s t h
  obtain ⟨op, rest, hs, hp⟩ := step_next_head h
  rw [hs, List.head?_cons]
  obtain ⟨hinit, hcur, hstat⟩ | ⟨⟨v, f, x, rfl⟩, hinit, hcur⟩ | ⟨⟨v, rfl⟩, hinit, hvfo⟩ | ⟨rfl, hinit⟩ :=
    perform_hostFields hp
  · exact ⟨hinit, fun _ _ => hcur, fun _ _ => hstat⟩
  · exact ⟨hinit, fun _ _ => hcur, fun hno _ => absurd rfl (hno v f x)⟩
  · exact ⟨hinit, fun hno _ => absurd rfl (hno v), fun _ _ => by rw [hvfo]⟩
  · exact ⟨hinit, fun _ hno => absurd rfl hno, fun _ hno => absurd rfl hno⟩

end Sys2Proof.Machine
end

section
/-! SUPPORT. What a command or an operation of the host leaves of the receiver, the queue's head and the script, and what a received
byte leaves in RXBUF (spec/41_frame_receiver.md R74 to R87). -/

namespace Sys2Proof.Machine

/-! ### `State.enqueue` -/

@[simp] theorem State.enqueue_chg (s : State) (m : Message) : (s.enqueue m).chg = s.chg := by
  obtain ⟨_, he⟩ | ⟨_, he⟩ := s.enqueue_cases m <;> rw [he] <;> rfl

@[simp] theorem State.enqueue_qh (s : State) (m : Message) : (s.enqueue m).qh = s.qh := by
  obtain ⟨_, he⟩ | ⟨_, he⟩ := s.enqueue_cases m <;> rw [he] <;> rfl

@[simp] theorem State.enqueue_script (s : State) (m : Message) : (s.enqueue m).script = s.script := by
  obtain ⟨_, he⟩ | ⟨_, he⟩ := s.enqueue_cases m <;> rw [he] <;> rfl

/-! ### The host's operations and the receiver -/

/-- Only RX_BYTE and RESET touch the receiver (R74, R155). -/
theorem perform_receiver {op : Op} {s t : State} (hb : ∀ b, op ≠ .rxByte b) (hr : op ≠ .reset) (h : perform op s = .next t) :
    t.rxidx = s.rxidx ∧ t.rxbuf = s.rxbuf := by
  cases op with
  | rxByte b => exact absurd rfl (hb b)
  | drain space => obtain ⟨-, ⟨-, rfl⟩ | ⟨-, -, rfl⟩ | ⟨-, -, rfl⟩⟩ := drain_cases h <;> exact ⟨rfl, rfl⟩
  | readField v f => obtain ⟨c, field, -, -, rfl⟩ := readField_cases h; exact ⟨rfl, rfl⟩
  | readFlags => cases h; exact ⟨rfl, rfl⟩
  | inject v f x => obtain ⟨c, field, -, -, -, rfl⟩ := inject_cases h; exact ⟨rfl, rfl⟩
  | selectVfo v => obtain ⟨-, rfl⟩ := selectVfo_cases h; exact ⟨rfl, rfl⟩
  | reset => exact absurd rfl hr
  | rssi r => cases h; exact ⟨rfl, rfl⟩

/-! ### The bytes held after a received byte -/

/-- Storing a byte at the first free place appends it to the bytes held (R75). -/
theorem take_set_append {buf : List Byte} {idx : Nat} (b : Byte) (h : idx < buf.length) :
    (buf.set idx b).take (idx + 1) = buf.take idx ++ [b] := by
  rw [List.take_add_one, List.take_set_of_le (Nat.le_refl idx), List.getElem?_set_self h, Option.toList_some]

/-- After a resynchronization the bytes held are the start-marker pair (R76). -/
theorem take_two_pair {buf : List Byte} (h : 2 ≤ buf.length) :
    ((buf.set 0 Config.startMarker).set 1 Config.startMarker).take 2 = [Config.startMarker, Config.startMarker] := by
  match buf, h with
  | _ :: _ :: _, _ => rfl

theorem length_rxbuf_rxStore (b : Byte) (s : State) : (rxStore b s).rxbuf.length = s.rxbuf.length := by
  by_cases h : s.rxidx < 32
  · rw [rxStore_room h, List.length_set]
  · rw [rxStore_full h, State.emit_rxbuf]

theorem length_rxbuf_rxResync (s : State) : (rxResync s).rxbuf.length = s.rxbuf.length := by
  by_cases h : endsInStartPair s = true
  · rw [rxResync_pair h, List.length_set, List.length_set]
  · rw [rxResync_none h]

end Sys2Proof.Machine
end

section
/-! SUPPORT. What no operation reads: the outputs already given (spec/10_state.md R32, spec/60_exceptions.md R150) and the bytes of RXBUF
from RXIDX on (R31, spec/41_frame_receiver.md R87); and the proofs of O43 and O59. -/

namespace Sys2Proof.Machine

open Safety (mapNext)
open Claims

/-- The state with its buffer's bytes exchanged by `g` and with the outputs `before` put in front of its own: the two things that
neither a command nor an operation of the host reads. -/
def State.disguise (g : List Byte → List Byte) (before : List Event) (s : State) : State :=
  { s with rxbuf := g s.rxbuf, out := before ++ s.out }

/-! ### The shared operations on a disguised state -/

section
variable (g : List Byte → List Byte) (before : List Event) (s : State)

@[simp] theorem State.disguise_vfo : (s.disguise g before).vfo = s.vfo := rfl
@[simp] theorem State.disguise_qn : (s.disguise g before).qn = s.qn := rfl
@[simp] theorem State.disguise_headMessage : (s.disguise g before).headMessage = s.headMessage := rfl

@[simp] theorem State.disguise_emit (e : Event) : (s.disguise g before).emit e = (s.emit e).disguise g before := by
  simp [State.emit, State.disguise]

@[simp] theorem State.disguise_pop : (s.disguise g before).pop = s.pop.disguise g before := rfl

@[simp] theorem State.disguise_enqueue (m : Message) : (s.disguise g before).enqueue m = (s.enqueue m).disguise g before := by
  by_cases h : s.qn < Config.qCap
  · rw [s.enqueue_of_room m h, State.enqueue_of_room (s := s.disguise g before) m h]; rfl
  · rw [s.enqueue_of_full m h, State.enqueue_of_full (s := s.disguise g before) m h]
    exact s.disguise_emit g before _

/-! ### Commands on a disguised state -/

theorem diag_disguise (c : DiagCode) :
    .next ((s.disguise g before).diag c) = mapNext (State.disguise g before) (.next (s.diag c)) :=
  congrArg Host.Outcome.next (s.disguise_emit g before (.diag c))

/-- A GET's reply is built from what the disguise leaves alone. -/
theorem answer_disguise (a2 a3 c : Byte) (payload : List Byte) :
    answer a2 a3 c payload (s.disguise g before) = mapNext (State.disguise g before) (answer a2 a3 c payload s) :=
  congrArg Host.Outcome.next (s.disguise_enqueue g before (reply a2 a3 c payload))

theorem setScalar_disguise (p : List Byte) (f : Channel → Byte → Channel) (flag : ChangeFlag) :
    setScalar p f flag (s.disguise g before) = mapNext (State.disguise g before) (setScalar p f flag s) := by
  cases p with
  | nil => exact diag_disguise g before s _
  | cons x extra => rfl

theorem execSetFrequency_disguise (p : List Byte) :
    execSetFrequency p (s.disguise g before) = mapNext (State.disguise g before) (execSetFrequency p s) := by
  unfold execSetFrequency
  split
  · rfl
  · exact diag_disguise g before s _

/-- No command reads the buffer or the outputs (R91, R150). -/
theorem exec_disguise (i : Instr) :
    exec i (s.disguise g before) = mapNext (State.disguise g before) (exec i s) := by
  cases i with
  | getFrequency a2 a3 p => exact answer_disguise g before s ..
  | setFrequency a2 a3 p => exact execSetFrequency_disguise g before s p
  | setMode a2 a3 p => exact setScalar_disguise g before s p (fun c x => { c with mode := x }) _
  | setSquelch a2 a3 p => exact setScalar_disguise g before s p (fun c x => { c with sql := x }) _
  | getSquelch a2 a3 p => exact answer_disguise g before s ..
  | setAgc a2 a3 p => exact diag_disguise g before s _
  | setStep17 a2 a3 p => exact diag_disguise g before s _
  | setScan a2 a3 p => exact diag_disguise g before s _
  | getRssi a2 a3 p => exact answer_disguise g before s.rssiUsed ..
  | setMonitor a2 a3 p => rfl
  | setRfGain a2 a3 p => exact setScalar_disguise g before s p (fun c x => { c with gain := x }) _
  | getRfGain a2 a3 p => exact answer_disguise g before s ..
  | setBandwidth a2 a3 p => exact setScalar_disguise g before s p (fun c x => { c with bw := x }) _
  | getBandwidth a2 a3 p => exact answer_disguise g before s ..
  | setTxPower a2 a3 p => exact setScalar_disguise g before s p (fun c x => { c with txp := x }) _
  | getTxPower a2 a3 p => exact answer_disguise g before s ..
  | getStatus a2 a3 p => exact answer_disguise g before s ..
  | setStep23 a2 a3 p => exact diag_disguise g before s _
  | getStep a2 a3 p => exact diag_disguise g before s _
  | unrecognized a2 a3 cmd p => exact diag_disguise g before s _

/-! ### The host's operations on a disguised state -/

theorem drain_disguise (space : Int) :
    drain space (s.disguise g before) = mapNext (State.disguise g before) (drain space s) := by
  simp only [drain, State.disguise_qn, State.disguise_headMessage, State.disguise_pop, State.disguise_emit]
  split_ifs <;> rfl

theorem readField_disguise (v : Nat) (f : BitVec 3) :
    readField v f (s.disguise g before) = mapNext (State.disguise g before) (readField v f s) := by
  simp only [readField, State.disguise_vfo, State.disguise_emit]
  split <;> rfl

theorem inject_disguise (v x : Nat) (f : BitVec 3) :
    inject v f x (s.disguise g before) = mapNext (State.disguise g before) (inject v f x s) := by
  simp only [inject, State.disguise_vfo]
  split
  · rfl
  · rfl
  · split <;> rfl

theorem selectVfo_disguise (v : Nat) :
    selectVfo v (s.disguise g before) = mapNext (State.disguise g before) (selectVfo v s) := by
  by_cases h : v < s.vfo.length
  · simp [selectVfo, h, mapNext, State.disguise]
  · simp [selectVfo, h, mapNext]

/-- Every operation but RX_BYTE and RESET reads neither the buffer nor the outputs (R135 to R138, R128). -/
theorem perform_disguise {op : Op} (hb : ∀ b, op ≠ .rxByte b) (hr : op ≠ .reset) :
    perform op (s.disguise g before) = mapNext (State.disguise g before) (perform op s) := by
  cases op with
  | rxByte b => exact absurd rfl (hb b)
  | drain space => exact drain_disguise g before s space
  | readField v f => exact readField_disguise g before s v f
  | readFlags => exact congrArg Host.Outcome.next (s.clearFlags.disguise_emit g before (.flagsRead s.chg))
  | inject v f x => exact inject_disguise g before s v x f
  | selectVfo v => exact selectVfo_disguise g before s v
  | reset => exact absurd rfl hr
  | rssi r => rfl

end

/-! ### Stale bytes of the buffer -/

/-- The states that differ from `s` at most in stale bytes are its disguises by a buffer with the same bytes held. -/
theorem sameUpToStaleBytes_iff (s t : State) : sameUpToStaleBytes s t ↔
    ∃ buf, t = s.disguise (fun _ => buf) [] ∧ buf.length = s.rxbuf.length ∧ buf.take s.rxidx = s.rxbuf.take s.rxidx := by
  constructor
  · rintro ⟨ht, hlen, htake⟩
    exact ⟨t.rxbuf, ht, hlen, htake⟩
  · rintro ⟨buf, rfl, hlen, htake⟩
    exact ⟨rfl, hlen, htake⟩

theorem sameUpToStaleBytes_refl (s : State) : sameUpToStaleBytes s s := ⟨rfl, rfl, rfl⟩

/-- An outcome and the same outcome with the next state changed are alike, if the change stays within the relation. -/
theorem alike_mapNext {rel : State → State → Prop} {f : State → State} (o : Host.Outcome State Fault Refusal)
    (h : ∀ t, o = .next t → rel t (f t)) : alike rel o (mapNext f o) := by
  cases o with
  | next t => exact h t rfl
  | fault e => rfl
  | refused e => rfl

/-- Step 1 stores the byte at the same place, or stores nothing (R75). -/
theorem rxStore_sameUpToStaleBytes {s t : State} (b : Byte) (hl : s.rxbuf.length = 32) (h : sameUpToStaleBytes s t) :
    sameUpToStaleBytes (rxStore b s) (rxStore b t) := by
  obtain ⟨buf, rfl, hlen, htake⟩ := (sameUpToStaleBytes_iff s t).1 h
  by_cases hr : s.rxidx < 32
  · rw [rxStore_room hr, rxStore_room (s := s.disguise _ _) hr]
    refine ⟨rfl, by simpa [State.disguise] using hlen, ?_⟩
    show (buf.set s.rxidx b).take (s.rxidx + 1) = (s.rxbuf.set s.rxidx b).take (s.rxidx + 1)
    rw [take_set_append b (by omega), take_set_append b (by omega), htake]
  · rw [rxStore_full hr, rxStore_full (s := s.disguise _ _) hr]
    exact ⟨rfl, hlen, htake⟩

/-- The byte at a position below RXIDX is one of the bytes held. -/
theorem getElem?_of_take_eq {buf buf' : List Byte} {idx k : Nat} (h : buf'.take idx = buf.take idx) (hk : k < idx) :
    buf'[k]? = buf[k]? := by
  rw [← List.getElem?_take_of_lt hk, h, List.getElem?_take_of_lt hk]

/-- Step 2 looks at the last two bytes held alone (R76). -/
theorem endsInStartPair_sameUpToStaleBytes {s t : State} (h : sameUpToStaleBytes s t) :
    endsInStartPair t = true ↔ endsInStartPair s = true := by
  obtain ⟨buf, rfl, -, htake⟩ := (sameUpToStaleBytes_iff s t).1 h
  rw [endsInStartPair_iff, endsInStartPair_iff]
  refine and_congr_right fun (h2 : 2 ≤ s.rxidx) => ?_
  show buf[s.rxidx - 2]? = _ ∧ buf[s.rxidx - 1]? = _ ↔ _
  rw [getElem?_of_take_eq htake (by omega), getElem?_of_take_eq htake (by omega)]

/-- Step 2 keeps nothing but the pair, or keeps the bytes held (R76). -/
theorem rxResync_sameUpToStaleBytes {s t : State} (hl : s.rxbuf.length = 32) (h : sameUpToStaleBytes s t) :
    sameUpToStaleBytes (rxResync s) (rxResync t) := by
  have hiff := endsInStartPair_sameUpToStaleBytes h
  by_cases hp : endsInStartPair s = true
  · rw [rxResync_pair hp, rxResync_pair (hiff.2 hp)]
    obtain ⟨buf, rfl, hlen, -⟩ := (sameUpToStaleBytes_iff s t).1 h
    refine ⟨rfl, by simpa [State.disguise] using hlen, ?_⟩
    exact (take_two_pair (buf := buf) (by omega)).trans (take_two_pair (by omega)).symm
  · rw [rxResync_none hp, rxResync_none (mt hiff.1 hp)]
    exact h

/-- Step 3 passes on fields from the bytes held alone, and leaves none held (R78, R80, R87). -/
theorem rxFinish_sameUpToStaleBytes {s t : State} (h : sameUpToStaleBytes s t) :
    alike sameUpToStaleBytes (rxFinish s) (rxFinish t) := by
  obtain ⟨buf, rfl, hlen, htake⟩ := (sameUpToStaleBytes_iff s t).1 h
  by_cases h6 : 6 ≤ s.rxidx
  · have hframe : frameOfBuffer buf s.rxidx = frameOfBuffer s.rxbuf s.rxidx := by
      rw [← frameOfBuffer_take buf _ h6, htake, frameOfBuffer_take _ _ h6]
    have ht : rxFinish (s.disguise (fun _ => buf) []) =
        exec (decodeFrame (frameOfBuffer buf s.rxidx)) (s.rxClear.disguise (fun _ => buf) []) := rxFinish_complete h6
    rw [rxFinish_complete h6, ht, hframe, exec_disguise]
    refine alike_mapNext _ fun t' he => ?_
    obtain ⟨hidx, hbuf⟩ := exec_receiver he
    refine (sameUpToStaleBytes_iff _ _).2 ⟨buf, rfl, by rw [hbuf]; exact hlen, ?_⟩
    rw [hidx, State.rxClear_rxidx, List.take_zero, List.take_zero]
  · rw [rxFinish_short h6, rxFinish_short (s := s.disguise _ _) h6]
    exact ⟨rfl, hlen, rfl⟩

theorem rxByte_sameUpToStaleBytes {s t : State} (b : Byte) (hl : s.rxbuf.length = 32) (h : sameUpToStaleBytes s t) :
    alike sameUpToStaleBytes (rxByte b s) (rxByte b t) := by
  have hpart : sameUpToStaleBytes (rxResync (rxStore b s)) (rxResync (rxStore b t)) :=
    rxResync_sameUpToStaleBytes (by rw [length_rxbuf_rxStore, hl]) (rxStore_sameUpToStaleBytes b hl h)
  by_cases hb : b = Config.endMarker
  · subst hb
    rw [rxByte_end, rxByte_end]
    exact rxFinish_sameUpToStaleBytes hpart
  · rw [rxByte_other hb, rxByte_other hb]
    exact hpart

theorem perform_sameUpToStaleBytes {s t : State} (op : Op) (hl : s.rxbuf.length = 32) (h : sameUpToStaleBytes s t) :
    alike sameUpToStaleBytes (perform op s) (perform op t) := by
  by_cases hb : ∃ b, op = .rxByte b
  · obtain ⟨b, rfl⟩ := hb
    exact rxByte_sameUpToStaleBytes b hl h
  obtain ⟨buf, rfl, hlen, htake⟩ := (sameUpToStaleBytes_iff s t).1 h
  by_cases hr : op = .reset
  · subst hr
    exact sameUpToStaleBytes_refl _
  · have hquiet : ∀ b, op ≠ .rxByte b := fun b hop => hb ⟨b, hop⟩
    rw [perform_disguise _ _ _ hquiet hr]
    refine alike_mapNext _ fun t' he => ?_
    obtain ⟨hidx, hbuf⟩ := perform_receiver hquiet hr he
    exact (sameUpToStaleBytes_iff _ _).2 ⟨buf, rfl, by rw [hbuf]; exact hlen, by rw [hidx, hbuf]; exact htake⟩

/-- Settles O43: the receiver's three steps read below RXIDX alone, and no other operation reads the buffer. -/
theorem staleBufferBytesAreNeverSeen : Obligations.StaleBufferBytesAreNeverSeen := by
  intro s t hl _ h
  obtain ⟨ht, hlen, htake⟩ := h
  cases hs : s.script with
  | nil => rw [step_none hs, step_none (by rw [ht]; exact hs)]; rfl
  | cons op rest =>
    rw [step_some hs, step_some (s := t) (by rw [ht]; exact hs)]
    exact perform_sameUpToStaleBytes op hl ⟨by rw [ht], hlen, htake⟩

/-! ### Earlier outputs -/

theorem rxStore_disguise_outputs (before : List Event) (b : Byte) (s : State) :
    rxStore b (s.disguise id before) = (rxStore b s).disguise id before := by
  by_cases hr : s.rxidx < 32
  · rw [rxStore_room hr, rxStore_room (s := s.disguise _ _) hr]; rfl
  · rw [rxStore_full hr, rxStore_full (s := s.disguise _ _) hr]
    exact s.disguise_emit id before _

theorem rxResync_disguise_outputs (before : List Event) (s : State) :
    rxResync (s.disguise id before) = (rxResync s).disguise id before := by
  have hends : endsInStartPair (s.disguise id before) = endsInStartPair s := rfl
  by_cases hp : endsInStartPair s = true
  · rw [rxResync_pair hp, rxResync_pair (hends.trans hp)]; rfl
  · rw [rxResync_none hp, rxResync_none (hends ▸ hp)]

theorem rxFinish_disguise_outputs (before : List Event) (s : State) :
    rxFinish (s.disguise id before) = mapNext (State.disguise id before) (rxFinish s) := by
  by_cases h6 : 6 ≤ s.rxidx
  · rw [rxFinish_complete h6, rxFinish_complete (s := s.disguise _ _) h6]
    exact exec_disguise id before s.rxClear _
  · rw [rxFinish_short h6, rxFinish_short (s := s.disguise _ _) h6]
    exact congrArg (fun t => Host.Outcome.next t.rxClear) (s.disguise_emit id before _)

/-- No operation reads the outputs (R150). -/
theorem perform_disguise_outputs (before : List Event) (op : Op) (s : State) :
    perform op (s.disguise id before) = mapNext (State.disguise id before) (perform op s) := by
  by_cases hb : ∃ b, op = .rxByte b
  · obtain ⟨b, rfl⟩ := hb
    show rxByte b (s.disguise id before) = mapNext _ (rxByte b s)
    by_cases hend : b = Config.endMarker
    · subst hend
      rw [rxByte_end, rxByte_end, rxStore_disguise_outputs, rxResync_disguise_outputs, rxFinish_disguise_outputs]
    · rw [rxByte_other hend, rxByte_other hend, rxStore_disguise_outputs, rxResync_disguise_outputs]; rfl
  by_cases hr : op = .reset
  · subst hr; rfl
  · exact perform_disguise id before s (fun b hop => hb ⟨b, hop⟩) hr

theorem step_disguise_outputs (before : List Event) (s : State) :
    step (s.disguise id before) = mapNext (State.disguise id before) (step s) := by
  cases hs : s.script with
  | nil => rw [step_none hs, step_none (s := s.disguise _ _) hs]; rfl
  | cons op rest =>
    rw [step_some hs, step_some (s := s.disguise _ _) hs]
    exact perform_disguise_outputs before op { s with script := rest }

/-- Settles O59: the state with the outputs `before` is the one with none, disguised, and no operation sees the disguise. -/
theorem outputsAreNeverRead : Obligations.OutputsAreNeverRead := by
  intro s before
  have hout : ({ s with out := before } : State) = State.disguise id before { s with out := [] } := by
    simp [State.disguise]
  rw [hout]
  exact step_disguise_outputs before { s with out := [] }

end Sys2Proof.Machine
end

section
/-! SUPPORT. What each operation keeps of the invariant (spec/10_state.md R13, R22 to R28, spec/30_encoding.md R60), and the proofs of
O56 and O55. -/

namespace Sys2Proof.Machine

open Safety (Inv legalMessage legalPartial)

/-! ### The partial frame -/

/-- A legal partial frame, position by position (R60, R86). -/
theorem legalPartial_iff (held : List Byte) : legalPartial held = true ↔
    Config.endMarker ∉ held ∧
      ∀ k, ¬ (held[k + 1]? = some Config.startMarker ∧ held[k + 2]? = some Config.startMarker) := by
  simp only [legalPartial, Bool.and_eq_true, Bool.not_eq_true', List.contains_eq_mem, decide_eq_false_iff_not, noStartPair_iff,
    List.getElem?_drop, Nat.add_comm 1, Nat.add_assoc, Nat.reduceAdd]

/-- A byte that is no end marker, and is not the second start marker of a pair, may join a legal partial frame. -/
theorem legalPartial_append {held : List Byte} {b : Byte} (h : legalPartial held = true) (hb : b ≠ Config.endMarker)
    (hpair : ¬ (b = Config.startMarker ∧ held[held.length - 1]? = some Config.startMarker)) :
    legalPartial (held ++ [b]) = true := by
  rw [legalPartial_iff] at h ⊢
  obtain ⟨hend, hstart⟩ := h
  refine ⟨fun hmem => (List.mem_append.1 hmem).elim hend fun hm => hb (List.mem_singleton.1 hm).symm, fun k ⟨h1, h2⟩ => ?_⟩
  obtain ⟨hk, -⟩ := List.getElem?_eq_some_iff.1 h2
  rw [List.length_append, List.length_singleton] at hk
  rw [List.getElem?_append_left (by omega)] at h1
  by_cases hlast : k + 2 = held.length
  · rw [hlast, List.getElem?_concat_length] at h2
    exact hpair ⟨Option.some.inj h2, by rw [show held.length - 1 = k + 1 by omega]; exact h1⟩
  · rw [List.getElem?_append_left (by omega)] at h2
    exact hstart k ⟨h1, h2⟩

/-! ### The invariant and the named updates -/

theorem inv_emit {s : State} (e : Event) (h : Inv s = true) : Inv (s.emit e) = true := h

/-- The invariant asks of the receiver that RXBUF has its size and that the bytes held are a legal partial frame. -/
theorem inv_receiver {s : State} {buf : List Byte} {idx : Nat} (out : List Event) (h : Inv s = true) (hbuf : buf.length = 32)
    (hidx : idx ≤ 32) (hpart : legalPartial (buf.take idx) = true) :
    Inv { s with rxbuf := buf, rxidx := idx, out := out } = true := by
  obtain ⟨hvfo, hcur, hchg, -, -, hq, hqh, hqn, hmsg, -⟩ := (inv_iff s).1 h
  exact (inv_iff _).2 ⟨hvfo, hcur, hchg, hbuf, hidx, hq, hqh, hqn, hmsg, hpart⟩

theorem inv_setFlag {s : State} (f : ChangeFlag) (h : Inv s = true) : Inv (s.setFlag f) = true := by
  obtain ⟨hvfo, hcur, hchg, hrest⟩ := (inv_iff s).1 h
  exact (inv_iff _).2 ⟨hvfo, hcur, setFlag_bit7 f hchg, hrest⟩

/-- Writing a channel's record leaves the number of channels (R13). -/
theorem inv_setVfo {s : State} (v : Nat) (c : Channel) (h : Inv s = true) : Inv { s with vfo := s.vfo.set v c } = true := by
  obtain ⟨hvfo, hcur, hrest⟩ := (inv_iff s).1 h
  exact (inv_iff _).2 ⟨by simpa using hvfo, by simpa using hcur, hrest⟩

theorem inv_pop {s : State} (h : Inv s = true) : Inv s.pop = true := by
  obtain ⟨hvfo, hcur, hchg, hbuf, hidx, hq, -, hqn, hmsg, hpart⟩ := (inv_iff s).1 h
  exact (inv_iff _).2 ⟨hvfo, hcur, hchg, hbuf, hidx, hq, Nat.mod_lt _ (by decide), Nat.le_trans (Nat.sub_le ..) hqn, hmsg, hpart⟩

/-- A legal message keeps the invariant, whether it is queued or dropped (R126, R127). -/
theorem inv_enqueue {s : State} {m : Message} (hm : legalMessage m = true) (h : Inv s = true) : Inv (s.enqueue m) = true := by
  obtain ⟨hroom, he⟩ | ⟨-, he⟩ := s.enqueue_cases m <;> rw [he]
  · obtain ⟨hvfo, hcur, hchg, hbuf, hidx, hq, hqh, -, hmsg, hpart⟩ := (inv_iff s).1 h
    refine (inv_iff _).2 ⟨hvfo, hcur, hchg, hbuf, hidx, by simpa using hq, hqh, hroom, fun x hx => ?_, hpart⟩
    obtain hold | rfl := List.mem_or_eq_of_mem_set hx
    · exact hmsg x hold
    · exact hm
  · exact inv_emit _ h

/-! ### The invariant and the operations -/

theorem exec_inv {i : Instr} {s t : State} (h : Inv s = true) (he : exec i s = .next t) : Inv t = true := by
  cases exec_cases he with
  | note c _ => exact inv_emit _ h
  | flag => exact inv_setFlag _ h
  | write c f _ => exact inv_setFlag f (inv_setVfo s.cur c h)
  | reply p hp => exact inv_enqueue (legalMessage_reply _ _ _ hp) h
  | sample p hp _ => exact inv_enqueue (s := s.rssiUsed) (legalMessage_reply _ _ _ (.inr (.inl hp))) h

/-- A byte that is no end marker is stored behind a legal partial frame, or leaves just the pair, or is dropped (R75, R76, R86). -/
theorem rxResync_rxStore_inv {b : Byte} {s : State} (h : Inv s = true) (hb : b ≠ Config.endMarker) :
    Inv (rxResync (rxStore b s)) = true := by
  obtain ⟨-, -, -, hbuf, hidx, -, -, -, -, hpart⟩ := (inv_iff s).1 h
  by_cases hroom : s.rxidx < 32
  · have hiff := rxStore_pair_iff (b := b) hroom hbuf
    by_cases hp : endsInStartPair (rxStore b s) = true
    · rw [rxResync_pair hp, rxStore_room hroom]
      refine inv_receiver (s := s) s.out h (by simpa using hbuf) (by decide) ?_
      rw [take_two_pair (by simp [hbuf])]; decide
    · rw [rxResync_none hp, rxStore_room hroom]
      refine inv_receiver (s := s) s.out h (by simpa using hbuf) hroom ?_
      rw [take_set_append b (by omega)]
      refine legalPartial_append hpart hb fun ⟨hstart, hlast⟩ => hp (hiff.2 ⟨hstart, ?_⟩)
      have hlen : (s.rxbuf.take s.rxidx).length = s.rxidx := by rw [List.length_take]; omega
      rw [hlen, List.getElem?_take] at hlast
      split at hlast
      · exact ⟨by omega, hlast⟩
      · cases hlast
  · rw [rxStore_full hroom, rxResync_none (not_endsInStartPair_of_full (s := s.diag _) h hroom)]
    exact inv_emit _ h

/-- An end marker leaves no byte held, so the buffer's bytes no longer matter (R80). -/
theorem rxClear_inv {b : Byte} {s : State} (h : Inv s = true) : Inv (rxResync (rxStore b s)).rxClear = true := by
  have hlen : (rxResync (rxStore b s)).rxbuf.length = 32 := by
    obtain ⟨-, -, -, hbuf, -⟩ := (inv_iff s).1 h
    rw [length_rxbuf_rxResync, length_rxbuf_rxStore, hbuf]
  obtain ⟨buf, idx, codes, he, -⟩ := rxResync_rxStore_frame b s
  rw [he] at hlen ⊢
  exact inv_receiver (s := s) (idx := 0) _ h hlen (Nat.zero_le _) rfl

theorem rxByte_inv {b : Byte} {s t : State} (h : Inv s = true) (hn : rxByte b s = .next t) : Inv t = true := by
  obtain ⟨hb, he⟩ | ⟨-, -, he⟩ | ⟨-, -, i, -, he⟩ := rxByte_cases b s <;> rw [he] at hn
  · cases hn; exact rxResync_rxStore_inv h hb
  · cases hn; exact inv_emit (.diag .rxShortFrame) (rxClear_inv h)
  · exact exec_inv (rxClear_inv h) hn

theorem drain_inv {space : Int} {s t : State} (h : Inv s = true) (hn : drain space s = .next t) : Inv t = true := by
  obtain ⟨-, ⟨-, rfl⟩ | ⟨-, -, rfl⟩ | ⟨-, -, rfl⟩⟩ := drain_cases hn
  · exact h
  · exact inv_emit _ (inv_pop h)
  · exact inv_emit _ (inv_pop h)

/-- The state after reset meets the invariant if there is a channel for CUR to name (R22, R33). -/
theorem inv_resetWith {init : List Channel} (h : 0 < init.length) : Inv (State.resetWith init) = true := by
  refine (inv_iff _).2 ⟨rfl, h, BitVec.getLsbD_zero, by simp, by simp, by simp, by simp, by simp, fun m hm => ?_, rfl⟩
  rw [List.eq_of_mem_replicate hm]; rfl

theorem perform_inv {op : Op} {s t : State} (h : Inv s = true) (hn : perform op s = .next t) : Inv t = true := by
  cases op with
  | rxByte b => exact rxByte_inv h hn
  | drain space => exact drain_inv h hn
  | readField v f => obtain ⟨c, field, -, -, rfl⟩ := readField_cases hn; exact inv_emit _ h
  | readFlags =>
    cases hn
    obtain ⟨hvfo, hcur, -, hrest⟩ := (inv_iff s).1 h
    exact inv_emit _ ((inv_iff s.clearFlags).2 ⟨hvfo, hcur, BitVec.getLsbD_zero, hrest⟩)
  | inject v f x => obtain ⟨c, field, -, -, -, rfl⟩ := inject_cases hn; exact inv_setVfo v _ h
  | selectVfo v =>
    obtain ⟨hv, rfl⟩ := selectVfo_cases hn
    obtain ⟨hvfo, -, hrest⟩ := (inv_iff s).1 h
    exact (inv_iff _).2 ⟨hvfo, hv, hrest⟩
  | reset =>
    cases hn
    obtain ⟨hvfo, hcur, -⟩ := (inv_iff s).1 h
    exact inv_resetWith (init := s.init) (by omega)
  | rssi r => cases hn; exact h

/-- Settles O56, by what the operation at the head of the script can do. -/
theorem everyStepKeepsTheInvariant : Obligations.EveryStepKeepsTheInvariant := by
  intro s t h hn
  obtain ⟨op, rest, -, hp⟩ := step_next_head hn
  exact perform_inv (s := { s with script := rest }) h hp

/-- Settles O55: `State.reset` is the state after reset for two channels. -/
theorem invariantHoldsAtReset : Obligations.InvariantHoldsAtReset :=
  ⟨fun _ h => inv_resetWith (List.length_pos_iff.2 h), inv_resetWith (by decide)⟩

end Sys2Proof.Machine
end

section
/-! SUPPORT. What a command leaves unchanged, how CHG grows, and RESET (spec/10_state.md R21 to R25, R33); and the proofs of O31, O57 and
O54. -/

namespace Sys2Proof.Machine

/-! ### A command's frame -/

/-- A command writes no record but the current one, and moves neither the queue's head nor the script (R21, R22). -/
theorem exec_frame {i : Instr} {s t : State} (h : exec i s = .next t) :
    (∀ v, v ≠ s.cur → t.vfo[v]? = s.vfo[v]?) ∧ t.qh = s.qh ∧ t.script = s.script := by
  cases exec_cases h with
  | note c _ => exact ⟨fun _ _ => rfl, rfl, rfl⟩
  | flag => exact ⟨fun _ _ => rfl, rfl, rfl⟩
  | write c f _ => exact ⟨fun _ hv => s.setChannel_other c hv, rfl, rfl⟩
  | reply p _ => simp
  | sample p _ _ => simp

/-- Settles O31: every command completes, and each of its possible effects leaves these parts of the state. -/
theorem commandsTouchOnlyCurrentChannel : Obligations.CommandsTouchOnlyCurrentChannel := by
  intro i s
  obtain ⟨t, h, -⟩ := exec_effect i s
  obtain ⟨hvfo, hqh, hscript⟩ := exec_frame h
  obtain ⟨hinit, hcur, hstat⟩ := exec_hostFieldsKept h
  obtain ⟨hidx, hbuf⟩ := exec_receiver h
  exact ⟨t, h, hvfo, hstat, hcur, hbuf, hidx, hqh, hinit, hscript⟩

/-! ### The change flags -/

/-- Every flag set in `s` is set in `t`. -/
def FlagsKept (s t : State) : Prop := ∀ k, s.chg.getLsbD k = true → t.chg.getLsbD k = true

theorem flagsKept_of_eq {s t : State} (h : t.chg = s.chg) : FlagsKept s t := fun k hk => by rw [h]; exact hk

theorem setFlag_flagsKept (s : State) (f : ChangeFlag) : FlagsKept s (s.setFlag f) := fun k hk => by
  rw [State.setFlag_chg, BitVec.getLsbD_or, hk, Bool.true_or]

/-- A command sets a flag or leaves CHG alone (R24, R25). -/
theorem exec_flagsKept {i : Instr} {s t : State} (h : exec i s = .next t) : FlagsKept s t := by
  cases exec_cases h with
  | note c _ => exact flagsKept_of_eq rfl
  | flag => exact setFlag_flagsKept s .mon
  | write c f _ => exact setFlag_flagsKept s f
  | reply p _ => exact flagsKept_of_eq (by simp)
  | sample p _ _ => exact flagsKept_of_eq (by simp)

theorem rxByte_flagsKept {b : Byte} {s t : State} (h : rxByte b s = .next t) : FlagsKept s t := by
  obtain ⟨buf, idx, codes, hrx, -⟩ := rxResync_rxStore_frame b s
  obtain ⟨-, he⟩ | ⟨-, -, he⟩ | ⟨-, -, i, -, he⟩ := rxByte_cases b s <;> rw [he, hrx] at h
  · cases h; exact flagsKept_of_eq rfl
  · cases h; exact flagsKept_of_eq rfl
  · intro k hk; exact exec_flagsKept h k hk

/-- Every operation but READ_FLAGS and RESET keeps the flags (R25). -/
theorem perform_flagsKept {op : Op} {s t : State} (hread : op ≠ .readFlags) (hreset : op ≠ .reset)
    (h : perform op s = .next t) : FlagsKept s t := by
  cases op with
  | rxByte b => exact rxByte_flagsKept h
  | drain space =>
    obtain ⟨-, ⟨-, rfl⟩ | ⟨-, -, rfl⟩ | ⟨-, -, rfl⟩⟩ := drain_cases h <;> exact flagsKept_of_eq rfl
  | readField v f => obtain ⟨c, field, -, -, rfl⟩ := readField_cases h; exact flagsKept_of_eq rfl
  | readFlags => exact absurd rfl hread
  | inject v f x => obtain ⟨c, field, -, -, -, rfl⟩ := inject_cases h; exact flagsKept_of_eq rfl
  | selectVfo v => obtain ⟨-, rfl⟩ := selectVfo_cases h; exact flagsKept_of_eq rfl
  | reset => exact absurd rfl hreset
  | rssi r => cases h; exact flagsKept_of_eq rfl

/-- Settles O57, by the operation at the head of the script: READ_FLAGS, RESET, or another one, which keeps the flags. -/
theorem flagsAreClearedOnlyAsABatch : Obligations.FlagsAreClearedOnlyAsABatch := by
  intro s t h
  obtain ⟨op, rest, hs, hp⟩ := step_next_head h
  rw [hs, List.head?_cons]
  refine ⟨fun hop => ?_, fun hop => ?_, fun hread hreset => ?_⟩
  · cases hop; cases hp; exact ⟨rfl, rfl⟩
  · cases hop; cases hp; rfl
  · exact perform_flagsKept (s := { s with script := rest }) (fun hop => hread (congrArg some hop))
      (fun hop => hreset (congrArg some hop)) hp

/-! ### RESET -/

/-- Settles O54, by performing the RESET at the head of the script. -/
theorem resetGivesTheFirstState : Obligations.ResetGivesTheFirstState := by
  intro s rest hs
  have hstep : step s = resetOp { s with script := rest } := step_some hs
  exact ⟨hstep, State.resetWith_vfo _, State.resetWith_cur _, State.resetWith_chg _, State.resetWith_rxidx _,
    State.resetWith_qh _, State.resetWith_qn _⟩

end Sys2Proof.Machine
end

section
/-! SUPPORT. How each operation moves the queued messages (spec/20_memory.md R49, spec/44_transmission_queue.md R131), and the proofs
of O40 and O46. -/

namespace Sys2Proof.Machine

/-! ### Before the end marker -/

/-- Settles O40, by the frame of the receiver's steps 1 and 2: at most the one overflow is noted. -/
theorem noEffectBeforeTheEndMarker : Obligations.NoEffectBeforeTheEndMarker := by
  intro s b rest hs hb
  obtain ⟨buf, idx, codes, hframe, hcodes⟩ := rxResync_rxStore_frame b { s with script := rest }
  have hstep : step s = .next (rxResync (rxStore b { s with script := rest })) := by
    rw [step_some hs]; exact rxByte_other hb _
  refine ⟨buf, idx, codes, hstep.trans (congrArg _ hframe), ?_⟩
  obtain rfl | ⟨rfl, -⟩ := hcodes <;> simp

/-! ### The queued messages -/

/-- A reply joins the tail, or is dropped (R126, R127). -/
theorem State.enqueue_pending {s : State} (m : Message) (hq : s.q.length = Config.qCap) :
    (s.enqueue m).pending = s.pending ∨ (s.enqueue m).pending = s.pending ++ [m] := by
  obtain ⟨hroom, he⟩ | ⟨-, he⟩ := s.enqueue_cases m <;> rw [he]
  · exact .inr (s.pending_push m hq hroom)
  · exact .inl rfl

/-- From `s` to `t`, the queue stayed as it is, or one message joined its tail. -/
def QueueGrows (s t : State) : Prop := t.pending = s.pending ∨ ∃ m, t.pending = s.pending ++ [m]

/-- Among a command's effects only a reply touches the queue (R114, R126). -/
theorem exec_queueGrows {i : Instr} {s t : State} (hq : s.q.length = Config.qCap) (h : exec i s = .next t) : QueueGrows s t := by
  cases exec_cases h with
  | note c _ => exact .inl rfl
  | flag => exact .inl rfl
  | write c f _ => exact .inl rfl
  | reply p _ => exact (State.enqueue_pending _ hq).imp_right fun hm => ⟨_, hm⟩
  | sample p _ _ => exact (State.enqueue_pending (s := s.rssiUsed) _ hq).imp_right fun hm => ⟨_, hm⟩

/-- A received byte moves the queue only through the command it dispatches (R81). -/
theorem rxByte_queueGrows {b : Byte} {s t : State} (hq : s.q.length = Config.qCap) (h : rxByte b s = .next t) :
    QueueGrows s t := by
  obtain ⟨buf, idx, codes, hrx, -⟩ := rxResync_rxStore_frame b s
  obtain ⟨-, he⟩ | ⟨-, -, he⟩ | ⟨-, -, i, -, he⟩ := rxByte_cases b s <;> rw [he, hrx] at h
  · cases h; exact .inl rfl
  · cases h; exact .inl rfl
  · have hcommand := exec_queueGrows (by exact hq) h
    exact hcommand

/-- DRAIN takes the oldest message off, or finds none (R128, R129). -/
theorem drain_pending {space : Int} {s t : State} (h : drain space s = .next t) :
    t.pending = s.pending ∨ ∃ m, s.pending = m :: t.pending := by
  obtain ⟨-, ⟨-, rfl⟩ | ⟨hn, -, rfl⟩ | ⟨hn, -, rfl⟩⟩ := drain_cases h
  · exact .inl rfl
  · exact .inr ⟨_, State.pending_pop hn⟩
  · exact .inr ⟨_, State.pending_pop hn⟩

/-- Every operation but RESET leaves the queued messages in place, or adds one at the tail, or takes the oldest (R131). -/
theorem perform_pending {op : Op} {s t : State} (hq : s.q.length = Config.qCap) (hr : op ≠ .reset)
    (h : perform op s = .next t) : QueueGrows s t ∨ ∃ m, s.pending = m :: t.pending := by
  cases op with
  | rxByte b => exact .inl (rxByte_queueGrows hq h)
  | drain space => exact (drain_pending h).imp_left .inl
  | readField v f => obtain ⟨c, field, -, -, rfl⟩ := readField_cases h; exact .inl (.inl rfl)
  | readFlags => cases h; exact .inl (.inl rfl)
  | inject v f x => obtain ⟨c, field, -, -, -, rfl⟩ := inject_cases h; exact .inl (.inl rfl)
  | selectVfo v => obtain ⟨-, rfl⟩ := selectVfo_cases h; exact .inl (.inl rfl)
  | reset => exact absurd rfl hr
  | rssi r => cases h; exact .inl (.inl rfl)

/-- Settles O46, by the operation at the head of the script: RESET, which empties the queue, or another one. -/
theorem queuedMessagesAreImmutable : Obligations.QueuedMessagesAreImmutable := by
  intro s t hinv h
  obtain ⟨-, -, -, -, -, hq, -⟩ := (inv_iff s).1 hinv
  obtain ⟨op, rest, hs, hp⟩ := step_next_head h
  rw [hs, List.head?_cons]
  by_cases hr : op = .reset
  · subst hr; cases hp
    exact .inr (.inr (.inr ⟨rfl, rfl⟩))
  · obtain (hsame | hjoin) | hleft := perform_pending (s := { s with script := rest }) hq hr hp
    · exact .inl hsame
    · exact .inr (.inl hjoin)
    · exact .inr (.inr (.inl hleft))

end Sys2Proof.Machine
end

section
/-! SUPPORT. The decoder and the encoder undo each other (spec/30_encoding.md R51 to R62), and the proofs of O8, O9, O10 and O12. -/

namespace Sys2Proof

/-! ### The command byte -/

/-- A frame selects the fallback exactly when no row of the command map has its command byte (R55, R111). -/
theorem decodeFrame_eq_unrecognized_iff (f : Frame) :
    decodeFrame f = .unrecognized f.a2 f.a3 f.cmd f.p ↔ f.cmd ∉ commandCodes := by
  constructor
  · intro he
    have hunlisted := fallbackUnlisted_decodeFrame f
    rw [he] at hunlisted
    simpa [fallbackUnlisted] using hunlisted
  · intro hcmd
    obtain ⟨row, hrow, hcode, -⟩ | ⟨-, he⟩ := decodeFrame_cases f
    · exact absurd (hcode ▸ List.mem_map_of_mem hrow) hcmd
    · exact he

/-- Settles O12: the 19 codes written out are the command map's. -/
theorem fallbackTakesExactlyUnlistedCodes : Obligations.FallbackTakesExactlyUnlistedCodes :=
  decodeFrame_eq_unrecognized_iff

/-! ### Decoding what was encoded -/

/-- A frame with an instruction's own command byte and operands selects that instruction (R54, R55). -/
theorem decodeFrame_fields {i : Instr} (h : fallbackUnlisted i = true) :
    decodeFrame ⟨(operands i).1, (operands i).2.1, commandByte i, (operands i).2.2⟩ = i := by
  cases i with
  | unrecognized a2 a3 cmd p => exact (decodeFrame_eq_unrecognized_iff ⟨a2, a3, cmd, p⟩).2 (by simpa [fallbackUnlisted] using h)
  | _ => rfl

theorem Instr.wf_iff (i : Instr) :
    i.wf = true ↔ (operands i).2.2.length ≤ Config.payloadMax ∧ fallbackUnlisted i = true := by
  rw [Instr.wf, payloadFits, Bool.and_eq_true, decide_eq_true_iff]

theorem Instr.framable_iff (i : Instr) : i.framable = true ↔
    Config.endMarker ∉ frameBody i ∧ noStartPair (Config.startMarker :: frameBody i) = true := by
  simp only [Instr.framable, framableBody, Bool.and_eq_true, Bool.not_eq_true', List.contains_eq_mem, decide_eq_false_iff_not]

/-- Settles O8: the frame has a legal length, and its fields are the instruction's own. -/
theorem decodeUndoesEncode : Obligations.DecodeUndoesEncode := by
  intro i hwf
  obtain ⟨hmin, hmax, -⟩ := Laws.FrameLength.of_any i hwf
  obtain ⟨-, hunlisted⟩ := i.wf_iff.1 hwf
  refine (decode_ok_iff _ _).2 ⟨hmin, hmax, ?_⟩
  rw [frameOfBuffer_encode, decodeFrame_fields hunlisted]

/-! ### Encoding what was decoded -/

/-- Of the bytes that decode to an instruction, all but the first two and the last one are its frame's body (R54, R82). -/
theorem bytes_of_decode {bytes : List Byte} {i : Instr} (h : decode bytes = .ok i) :
    ∃ m0 m1 last, bytes = m0 :: m1 :: (frameBody i ++ [last]) := by
  obtain ⟨hmin, -, rfl⟩ := (decode_ok_iff _ _).1 h
  rw [frameBody_decodeFrame]
  match bytes, hmin with
  | m0 :: m1 :: a2 :: a3 :: cmd :: b :: rest, _ =>
    have hp : (frameOfBuffer (m0 :: m1 :: a2 :: a3 :: cmd :: b :: rest) (rest.length + 6)).p = (b :: rest).dropLast := by
      simp [frameOfBuffer, List.dropLast_eq_take]
    refine ⟨m0, m1, (b :: rest).getLast (List.cons_ne_nil _ _), ?_⟩
    have hbody := List.dropLast_concat_getLast (List.cons_ne_nil b rest)
    rw [← hp] at hbody
    exact congrArg (fun tail => m0 :: m1 :: a2 :: a3 :: cmd :: tail) hbody.symm

theorem wf_of_decode {bytes : List Byte} {i : Instr} (h : decode bytes = .ok i) : i.wf = true := by
  obtain ⟨-, hmax, hi⟩ := (decode_ok_iff _ _).1 h
  obtain ⟨m0, m1, last, rfl⟩ := bytes_of_decode h
  refine i.wf_iff.2 ⟨?_, hi ▸ fallbackUnlisted_decodeFrame _⟩
  simp only [frameBody, List.cons_append, List.length_cons, List.length_append, Config.rxCap] at hmax
  simp only [Config.payloadMax, Config.rxCap, Config.minFrame]
  omega

/-- Settles O9: the body stands between the frame's markers. -/
theorem encodeUndoesDecode : Obligations.EncodeUndoesDecode := by
  intro bytes i h
  refine ⟨wf_of_decode h, ?_⟩
  obtain ⟨m0, m1, last, rfl⟩ := bytes_of_decode h
  simp [encode]

/-- Settles O10, by the decoder's two length tests. -/
theorem decodeRejectsOnlyByLength : Obligations.DecodeRejectsOnlyByLength := by
  intro bytes
  by_cases hmin : bytes.length < 6
  · have hd : decode bytes = .error .tooShort := if_pos hmin
    simp only [hd, true_iff, Except.error.injEq, reduceCtorEq, false_iff, exists_false]
    omega
  by_cases hmax : 32 < bytes.length
  · have hd : decode bytes = .error .tooLong := (if_neg hmin).trans (if_pos hmax)
    simp only [hd, true_iff, Except.error.injEq, reduceCtorEq, false_iff, exists_false]
    omega
  · have hd : decode bytes = .ok (decodeFrame (frameOfBuffer bytes bytes.length)) :=
      (decode_ok_iff _ _).2 ⟨Nat.le_of_not_lt hmin, Nat.le_of_not_lt hmax, rfl⟩
    simp only [hd, reduceCtorEq, false_iff, Except.ok.injEq, exists_eq', true_iff]
    omega

end Sys2Proof
end

section
/-! SUPPORT. What the receiver holds while a frame's bytes arrive, and what their end marker dispatches (spec/30_encoding.md R60,
spec/41_frame_receiver.md R74 to R86); and the proofs of O41 and O42. -/

namespace Sys2Proof.Machine

open Claims (dispatches)

/-! ### What an end marker dispatches -/

/-- Leaving out a list's last bytes makes no start-marker pair. -/
theorem noStartPair_of_append {l tail : List Byte} (h : noStartPair (l ++ tail) = true) : noStartPair l = true := by
  rw [noStartPair_iff] at h ⊢
  have hleft : ∀ j, l[j]? = some Config.startMarker → (l ++ tail)[j]? = some Config.startMarker := fun j hj => by
    obtain ⟨hlt, -⟩ := List.getElem?_eq_some_iff.1 hj
    rw [List.getElem?_append_left hlt, hj]
  exact fun k ⟨h1, h2⟩ => h k ⟨hleft k h1, hleft (k + 1) h2⟩

/-- The body of what an end marker dispatches stands among the bytes held, from position 2 on (R54, R78, R84). -/
theorem held_of_dispatches {s : State} {i : Instr} (hl : s.rxbuf.length = 32) (h : dispatches s i) :
    ∃ m0 m1 tail, s.rxbuf.take s.rxidx = m0 :: m1 :: (frameBody i ++ tail) := by
  obtain ⟨-, hd⟩ | ⟨hfull, hd⟩ := h
  · obtain ⟨m0, m1, last, hbytes⟩ := bytes_of_decode hd
    obtain ⟨hheld, -⟩ := List.append_inj' (t₁ := [_]) (t₂ := [last]) (s₂ := m0 :: m1 :: frameBody i) hbytes rfl
    exact ⟨m0, m1, [], by rw [hheld, List.append_nil]⟩
  · obtain ⟨m0, m1, last, hbytes⟩ := bytes_of_decode hd
    exact ⟨m0, m1, [last], by rw [hfull, ← hl, List.take_length, hbytes]⟩

/-- Settles O42: the bytes held from position 1 on hold no marker pair, and the body is among them. -/
theorem dispatchedFramesHoldNoMarkers : Obligations.DispatchedFramesHoldNoMarkers := by
  intro s i hinv hd
  obtain ⟨-, -, -, hl, -, -, -, -, -, hpart⟩ := (inv_iff s).1 hinv
  obtain ⟨m0, m1, tail, hheld⟩ := held_of_dispatches hl hd
  rw [hheld] at hpart
  obtain ⟨hend, -⟩ := (legalPartial_iff _).1 hpart
  have hfree : Config.endMarker ∉ frameBody i := fun hm =>
    hend (List.mem_cons_of_mem _ (List.mem_cons_of_mem _ (List.mem_append_left _ hm)))
  have hbody : noStartPair (m1 :: frameBody i) = true :=
    noStartPair_of_append (tail := tail) (Bool.and_eq_true_iff.1 hpart).2
  refine ⟨hfree, noStartPair_tail hbody, fun hstart => ?_⟩
  have hread : (s.rxbuf.take s.rxidx)[1]? = some m1 := by rw [hheld]; rfl
  have hm1 : m1 = Config.startMarker := by
    rw [List.getElem?_take] at hread
    split at hread
    · exact Option.some.inj (hread.symm.trans hstart)
    · cases hread
  exact i.framable_iff.2 ⟨hfree, hm1 ▸ hbody⟩

/-! ### Taking bytes in -/

/-- The state after steps 1 and 2 of RX_BYTE for each of the bytes (R75, R76). -/
def State.takeIn (s : State) (bytes : List Byte) : State := bytes.foldl (fun t b => rxResync (rxStore b t)) s

@[simp] theorem State.takeIn_nil (s : State) : s.takeIn [] = s := rfl

@[simp] theorem State.takeIn_cons (s : State) (b : Byte) (bytes : List Byte) :
    s.takeIn (b :: bytes) = (rxResync (rxStore b s)).takeIn bytes := rfl

theorem State.takeIn_append (s : State) (bytes more : List Byte) : s.takeIn (bytes ++ more) = (s.takeIn bytes).takeIn more :=
  List.foldl_append

/-- Steps 1 and 2 do not look at the operations to come. -/
theorem rxResync_rxStore_script (b : Byte) (s : State) (ops : List Op) :
    rxResync (rxStore b { s with script := ops }) = { rxResync (rxStore b s) with script := ops } := by
  have hstore : rxStore b { s with script := ops } = { rxStore b s with script := ops } := by
    by_cases hr : s.rxidx < 32
    · rw [rxStore_room hr, rxStore_room (s := { s with script := ops }) hr]
    · rw [rxStore_full hr, rxStore_full (s := { s with script := ops }) hr]; rfl
  rw [hstore]
  by_cases hp : endsInStartPair (rxStore b s) = true
  · rw [rxResync_pair hp, rxResync_pair (s := { rxStore b s with script := ops }) hp]
  · rw [rxResync_none hp, rxResync_none (s := { rxStore b s with script := ops }) hp]

theorem step_rxByte (b : Byte) (s : State) (rest : List Op) :
    step { s with script := .rxByte b :: rest } = rxByte b { s with script := rest } := rfl

/-- A run over the RX_BYTEs of bytes with no end marker takes them in (R74, R77). -/
theorem run_takeIn (bytes : List Byte) (s : State) (rest : List Op) (n : Nat) (hend : Config.endMarker ∉ bytes) :
    Host.Core.run core (bytes.length + n) { s with script := rxLine bytes ++ rest } =
      Host.Core.run core n { s.takeIn bytes with script := rest } := by
  induction bytes generalizing s with
  | nil => rw [List.length_nil, Nat.zero_add]; rfl
  | cons b bytes ih =>
    obtain ⟨hb, hmore⟩ := List.ne_and_not_mem_of_not_mem_cons hend
    have hstep : core.step { s with script := rxLine (b :: bytes) ++ rest } =
        .next { rxResync (rxStore b s) with script := rxLine bytes ++ rest } := by
      rw [← rxResync_rxStore_script]
      exact (step_rxByte b s _).trans (rxByte_other (Ne.symm hb) _)
    rw [List.length_cons, Nat.add_right_comm, core_run_next core hstep, ih _ hmore, State.takeIn_cons]

theorem core_run_one (M : Host.Core) (s : M.State) : M.run 1 s = M.step s := by
  rw [Host.Core.run]
  cases M.step s <;> rfl

/-- A run over such bytes and one byte more receives that byte last (R74). -/
theorem run_takeIn_rxByte (bytes : List Byte) (b : Byte) (s : State) (rest : List Op) (hend : Config.endMarker ∉ bytes) :
    Host.Core.run core (bytes.length + 1) { s with script := rxLine bytes ++ .rxByte b :: rest } =
      rxByte b { s.takeIn bytes with script := rest } :=
  (run_takeIn bytes s (.rxByte b :: rest) 1 hend).trans (core_run_one core _)

/-! ### The bytes held -/

/-- `t` is `s` but for the receiver, which holds exactly the bytes `held`. -/
def HoldsInstead (s t : State) (held : List Byte) : Prop :=
  ∃ buf : List Byte, buf.length = 32 ∧ buf.take held.length = held ∧ t = { s with rxbuf := buf, rxidx := held.length }

theorem holdsInstead_self {s : State} (hl : s.rxbuf.length = 32) (hidx : s.rxidx ≤ 32) :
    HoldsInstead s s (s.rxbuf.take s.rxidx) := by
  have hlen : (s.rxbuf.take s.rxidx).length = s.rxidx := by rw [List.length_take]; omega
  exact ⟨s.rxbuf, hl, by rw [hlen], by rw [hlen]⟩

/-- What the receiver holds has nothing to do with the operations to come. -/
theorem HoldsInstead.script {s t : State} {held : List Byte} (h : HoldsInstead s t held) (ops : List Op) :
    HoldsInstead { s with script := ops } { t with script := ops } held := by
  obtain ⟨buf, hlen, htake, rfl⟩ := h
  exact ⟨buf, hlen, htake, rfl⟩

section
variable {s t : State} {held : List Byte}

/-- The stored byte ends a pair exactly when it and the last byte held are start markers (R76). -/
theorem HoldsInstead.pair_iff (h : HoldsInstead s t held) (hroom : held.length < 32) (b : Byte) :
    endsInStartPair (rxStore b t) = true ↔ b = Config.startMarker ∧ held.getLast? = some Config.startMarker := by
  obtain ⟨buf, hlen, htake, rfl⟩ := h
  rw [rxStore_pair_iff hroom hlen, List.getLast?_eq_getElem?]
  refine and_congr_right fun _ => ?_
  by_cases hnone : held.length = 0
  · simp [List.eq_nil_of_length_eq_zero hnone]
  · have hlast : held[held.length - 1]? = buf[held.length - 1]? := by
      have htaken : (buf.take held.length)[held.length - 1]? = buf[held.length - 1]? := List.getElem?_take_of_lt (by omega)
      rwa [htake] at htaken
    rw [hlast, and_iff_right (by omega : 1 ≤ held.length)]

/-- A byte that ends no pair joins the bytes held (R75). -/
theorem HoldsInstead.store {b : Byte} (h : HoldsInstead s t held) (hroom : held.length < 32)
    (hb : ¬ (b = Config.startMarker ∧ held.getLast? = some Config.startMarker)) :
    HoldsInstead s (rxResync (rxStore b t)) (held ++ [b]) := by
  rw [rxResync_none (mt (h.pair_iff hroom b).1 hb)]
  obtain ⟨buf, hlen, htake, rfl⟩ := h
  rw [rxStore_room hroom]
  refine ⟨buf.set held.length b, by rw [List.length_set, hlen], ?_, by rw [List.length_append]; rfl⟩
  rw [List.length_append, List.length_singleton, take_set_append b (by omega), htake]

/-- A start marker after a start marker leaves just the pair (R76). -/
theorem HoldsInstead.resync (h : HoldsInstead s t held) (hroom : held.length < 32)
    (hlast : held.getLast? = some Config.startMarker) :
    HoldsInstead s (rxResync (rxStore Config.startMarker t)) [Config.startMarker, Config.startMarker] := by
  rw [rxResync_pair ((h.pair_iff hroom _).2 ⟨rfl, hlast⟩)]
  obtain ⟨buf, hlen, -, rfl⟩ := h
  rw [rxStore_room hroom]
  exact ⟨_, by simp [hlen], take_two_pair (by simp [hlen]), rfl⟩

/-- Two start markers leave just the pair, whatever partial frame was held (R76). -/
theorem HoldsInstead.takeIn_pair (h : HoldsInstead s t held) (hroom : held.length ≤ 30) :
    HoldsInstead s (t.takeIn [Config.startMarker, Config.startMarker]) [Config.startMarker, Config.startMarker] := by
  by_cases hlast : held.getLast? = some Config.startMarker
  · exact (h.resync (by omega) hlast).resync (by decide) rfl
  · have hstored := h.store (b := Config.startMarker) (by omega) fun ⟨_, hl⟩ => hlast hl
    exact hstored.resync (by rw [List.length_append, List.length_singleton]; omega) List.getLast?_concat

/-- Bytes among which no start marker follows another join the bytes held (R75). -/
theorem HoldsInstead.takeIn {a : Byte} {more : List Byte} (h : HoldsInstead s t (held ++ [a]))
    (hroom : (held ++ a :: more).length ≤ 32) (hpair : noStartPair (a :: more) = true) :
    HoldsInstead s (t.takeIn more) (held ++ a :: more) := by
  induction more generalizing t held a with
  | nil => exact h
  | cons b more ih =>
    rw [noStartPair, Bool.and_eq_true] at hpair
    obtain ⟨hab, hmore⟩ := hpair
    have hlen : (held ++ [a]).length < 32 := by
      simp only [List.length_append, List.length_cons, List.length_nil] at hroom ⊢; omega
    have hstored : HoldsInstead s (rxResync (rxStore b t)) (held ++ [a] ++ [b]) := by
      refine h.store hlen fun ⟨hb, ha⟩ => ?_
      rw [List.getLast?_concat, Option.some.injEq] at ha
      simp [ha, hb] at hab
    have hheld := ih hstored (by simpa using hroom) hmore
    rwa [List.append_assoc] at hheld

/-- An end marker after bytes that it completes to a frame runs the frame's instruction (R78, R81). -/
theorem HoldsInstead.rxByte_end {i : Instr} (h : HoldsInstead s t held) (hroom : held.length < 32)
    (hd : decode (held ++ [Config.endMarker]) = .ok i) :
    ∃ buf : List Byte, buf.length = 32 ∧ rxByte Config.endMarker t = exec i { s with rxbuf := buf, rxidx := 0 } := by
  obtain ⟨hmin, -, hi⟩ := (decode_ok_iff _ _).1 hd
  obtain ⟨buf, hlen, htake, rfl⟩ := h
  rw [List.length_append, List.length_singleton] at hmin hi
  refine ⟨buf.set held.length Config.endMarker, by rw [List.length_set, hlen], ?_⟩
  rw [rxByte_end_room hroom, rxFinish_complete hmin, ← frameOfBuffer_take _ _ hmin, take_set_append _ (hlen ▸ hroom), htake, hi]
  rfl

end

/-- The bytes of an instruction's frame before its end marker (R51). -/
def openFrame (i : Instr) : List Byte := [Config.startMarker, Config.startMarker] ++ frameBody i

theorem encode_eq_openFrame (i : Instr) : encode i = openFrame i ++ [Config.endMarker] := rfl

/-- From any partial frame with room for the markers, a framable frame's bytes are all that is held before its end marker. -/
theorem holdsInstead_openFrame {s : State} {i : Instr} (hl : s.rxbuf.length = 32) (hidx : s.rxidx ≤ 30)
    (hroom : (openFrame i).length ≤ 32) (hpair : noStartPair (Config.startMarker :: frameBody i) = true) :
    HoldsInstead s (s.takeIn (openFrame i)) (openFrame i) := by
  have hmarkers := (holdsInstead_self hl (by omega)).takeIn_pair (by rw [List.length_take]; omega)
  rw [openFrame, State.takeIn_append]
  exact hmarkers.takeIn (held := [Config.startMarker]) hroom hpair

/-- Settles O41: the markers leave just the pair, the body joins it, and the end marker runs what the bytes then held decode to. -/
theorem receivedFrameRunsItsInstruction : Obligations.ReceivedFrameRunsItsInstruction := by
  intro i s rest hwf hframable hl hidx hscript
  obtain ⟨hend, hpair⟩ := i.framable_iff.1 hframable
  obtain ⟨-, hmax, -⟩ := Laws.FrameLength.of_any i hwf
  have hlen : (encode i).length = (openFrame i).length + 1 := by simp [encode_eq_openFrame]
  have hheld := holdsInstead_openFrame (i := i) hl hidx (by omega) hpair
  obtain ⟨buf, hbuf, hdispatch⟩ := (hheld.script rest).rxByte_end (by omega) (decodeUndoesEncode i hwf)
  have hopen : Config.endMarker ∉ openFrame i := by simpa [openFrame] using hend
  have hops : s.script = rxLine (openFrame i) ++ .rxByte Config.endMarker :: rest := by
    rw [hscript, encode_eq_openFrame, List.map_append, List.append_assoc]; rfl
  have hrun := run_takeIn_rxByte (openFrame i) Config.endMarker s rest hopen
  rw [← hops, ← hlen] at hrun
  exact ⟨buf, hbuf, hrun.trans hdispatch⟩

end Sys2Proof.Machine
end

section
/-! SUPPORT. The BCD codec by decimal pairs (spec/40_bcd_codec.md R65 to R72): what one byte is worth, what the decoder and the encoder do
with the last pair, and the two directions of the round trip for every number of bytes; and the proofs of O1 to O7. -/

namespace Sys2Proof.Machine

open Claims

/-! ### One pair -/

theorem pairValue_eq_nibbles (b : Byte) : pairValue b = highNibble b * 10 + lowNibble b := by
  rw [pairValue, highNibble_eq, lowNibble_eq, Nat.mul_comm]

theorem pairValue_le (b : Byte) : pairValue b ≤ 165 := by
  have hb := b.isLt
  rw [pairValue]; omega

theorem pairValue_lt_of_isBcd {b : Byte} (h : isBcd b) : pairValue b < 100 := by
  obtain ⟨hhigh, hlow⟩ := h
  rw [pairValue]; omega

theorem pairValue_pairByte {d : Nat} (h : d < 100) : pairValue (pairByte d) = d := by
  rw [pairValue_eq_nibbles, highNibble_pairByte h, lowNibble_pairByte h, Nat.div_add_mod']

theorem isBcd_pairByte {d : Nat} (h : d < 100) : isBcd (pairByte d) := by
  rw [isBcd, toNat_pairByte h]; omega

theorem pairByte_pairValue {b : Byte} (h : isBcd b) : pairByte (pairValue b) = b := by
  apply BitVec.eq_of_toNat_eq
  rw [toNat_pairByte (pairValue_lt_of_isBcd h), pairValue]
  obtain ⟨hhigh, hlow⟩ := h
  omega

theorem toNat_le_of_isBcd {b : Byte} (h : isBcd b) : b.toNat ≤ 0x99 := by
  obtain ⟨hhigh, hlow⟩ := h
  omega

/-- The statements' pair of weight `100^k` is the byte the encoder's loop makes of it (R68). -/
theorem pairOf_eq_pairByte (x k : Nat) : pairOf x k = pairByte (x / 100 ^ k % 100) := by
  apply BitVec.eq_of_toNat_eq
  rw [toNat_pairByte (Nat.mod_lt _ (by decide)), pairOf, BitVec.toNat_ofNat, Nat.mul_comm 10, ← Nat.div_div_eq_div_mul]
  generalize x / 100 ^ k = y
  have htens : y % 100 / 10 = y / 10 % 10 := Nat.mod_mul_right_div_self y 10 10
  omega

/-! ### The last pair -/

/-- One turn of the decoder's loop (R65). -/
theorem bcdDecode_concat (bytes : List Byte) (b : Byte) : bcdDecode (bytes ++ [b]) = bcdDecode bytes * 100 + pairValue b := by
  rw [bcdDecode, List.foldl_append, pairValue_eq_nibbles, ← Nat.add_assoc]; rfl

/-- The encoder never reads the bytes already filled. -/
theorem bcdFill_append (n y : Nat) (filled : List Byte) : bcdFill n y filled = bcdFill n y [] ++ filled := by
  induction n generalizing y filled with
  | zero => rfl
  | succ n ih => rw [bcdFill, bcdFill, ih, ih _ [_], List.append_assoc]; rfl

/-- One turn of the encoder's loop (R68). -/
theorem bcdFill_succ (n y : Nat) : bcdFill (n + 1) y [] = bcdFill n (y / 100) [] ++ [pairByte (y % 100)] :=
  bcdFill_append n (y / 100) _

/-! ### Any number of pairs -/

/-- `165 = 15 * 10 + 15` is the most a byte is worth, so the decode of `n` bytes is at most 165 times the repunit `(100^n - 1) / 99`. -/
theorem bcdDecode_bound (bytes : List Byte) : bcdDecode bytes * 99 + 165 ≤ 165 * 100 ^ bytes.length := by
  induction bytes using List.reverseRecOn with
  | nil => decide
  | append_singleton bytes b ih =>
    have hb := pairValue_le b
    rw [bcdDecode_concat, List.length_append, List.length_singleton, Nat.pow_succ]
    omega

theorem bcdDecode_lt_of_isBcd (bytes : List Byte) (h : ∀ b ∈ bytes, isBcd b) : bcdDecode bytes < 100 ^ bytes.length := by
  induction bytes using List.reverseRecOn with
  | nil => decide
  | append_singleton bytes b ih =>
    have hb := pairValue_lt_of_isBcd (h b (by simp))
    have hbytes := ih fun c hc => h c (by simp [hc])
    rw [bcdDecode_concat, List.length_append, List.length_singleton, Nat.pow_succ]
    omega

theorem isBcd_of_mem_bcdFill {n y : Nat} {b : Byte} (h : b ∈ bcdFill n y []) : isBcd b := by
  induction n generalizing y with
  | zero => cases h
  | succ n ih =>
    rw [bcdFill_succ, List.mem_append, List.mem_singleton] at h
    obtain h | rfl := h
    · exact ih h
    · exact isBcd_pairByte (Nat.mod_lt _ (by decide))

/-- What was encoded in `n` pairs decodes to its last `2n` digits (R69, R70). -/
theorem bcdDecode_bcdFill (n y : Nat) : bcdDecode (bcdFill n y []) = y % 100 ^ n := by
  induction n generalizing y with
  | zero => exact (Nat.mod_one y).symm
  | succ n ih =>
    rw [bcdFill_succ, bcdDecode_concat, ih, pairValue_pairByte (Nat.mod_lt _ (by decide)), Nat.pow_succ', Nat.mod_mul]
    omega

/-- Valid BCD is encoded again from its decode (R72). -/
theorem bcdFill_bcdDecode (bytes : List Byte) (h : ∀ b ∈ bytes, isBcd b) :
    bcdFill bytes.length (bcdDecode bytes) [] = bytes := by
  induction bytes using List.reverseRecOn with
  | nil => rfl
  | append_singleton bytes b ih =>
    have hb := h b (by simp)
    have hlt := pairValue_lt_of_isBcd hb
    have hdiv : (bcdDecode bytes * 100 + pairValue b) / 100 = bcdDecode bytes := by omega
    have hmod : (bcdDecode bytes * 100 + pairValue b) % 100 = pairValue b := by omega
    rw [List.length_append, List.length_singleton, bcdFill_succ, bcdDecode_concat, hdiv, hmod, pairByte_pairValue hb,
      ih fun c hc => h c (by simp [hc])]

/-! ### Five pairs -/

theorem isBcd_of_mem_bcdEncode {x : Nat} {b : Byte} (h : b ∈ bcdEncode x) : isBcd b := isBcd_of_mem_bcdFill h

theorem bcdDecode_bcdEncode (x : Nat) : bcdDecode (bcdEncode x) = x % 10 ^ 10 := bcdDecode_bcdFill 5 x

theorem bcdEncode_bcdDecode {bytes : List Byte} (hl : bytes.length = 5) (h : ∀ b ∈ bytes, isBcd b) :
    bcdEncode (bcdDecode bytes) = bytes := by
  rw [bcdEncode, ← hl, bcdFill_bcdDecode bytes h]

/-- Settles O2: five bytes of at most 165 each, or of at most 99 each. -/
theorem bcdDecodeFitsFreqRegister : Obligations.BcdDecodeFitsFreqRegister := by
  refine ⟨fun bytes hl => ?_, by decide, fun bytes hl hbcd => ?_⟩
  · have hbound := bcdDecode_bound bytes
    rw [hl] at hbound
    omega
  · have hlt := bcdDecode_lt_of_isBcd bytes hbcd
    rwa [hl] at hlt

/-- Settles O4: the encoded bytes are valid BCD, so encoding their decode, which is `x mod 10^10`, gives them back. -/
theorem bcdEncodeDropsDigitsAboveTenth : Obligations.BcdEncodeDropsDigitsAboveTenth := by
  intro x
  rw [← bcdDecode_bcdEncode, bcdEncode_bcdDecode (length_bcdEncode x) fun _ => isBcd_of_mem_bcdEncode]

/-- Settles O5. -/
theorem bcdRoundTripsTenDigits : Obligations.BcdRoundTripsTenDigits := by
  intro f hf
  rw [bcdDecode_bcdEncode, Nat.mod_eq_of_lt hf]

/-- Settles O6: every byte is a decimal pair, and both markers are above 0x99. -/
theorem bcdEncodeHoldsNoMarkerByte : Obligations.BcdEncodeHoldsNoMarkerByte := by
  intro x b hb
  have hbcd := isBcd_of_mem_bcdEncode hb
  have hle := toNat_le_of_isBcd hbcd
  exact ⟨hbcd, hle, by rintro rfl; exact absurd hle (by decide), by rintro rfl; exact absurd hle (by decide)⟩

/-- Settles O7: the encoder makes valid BCD only, and gives back all of it. -/
theorem bcdReencodesOnlyValidBytes : Obligations.BcdReencodesOnlyValidBytes := by
  intro bytes hl
  constructor
  · intro h b hb
    rw [← h] at hb
    exact isBcd_of_mem_bcdEncode hb
  · exact bcdEncode_bcdDecode hl

/-- Settles O1, from the decoder's loop over five bytes with each byte's nibbles put together. -/
theorem bcdDecodeWeighsFivePairs : Obligations.BcdDecodeWeighsFivePairs := by
  intro b0 b1 b2 b3 b4
  simp only [bcdDecode_five, pairValue_eq_nibbles]
  ring

/-- Settles O3: the loop's `k` divisions by 100 are one division by `100^k`. -/
theorem bcdEncodeFillsFivePairs : Obligations.BcdEncodeFillsFivePairs := by
  intro x
  simp [bcdEncode_five, pairOf_eq_pairByte, Nat.div_div_eq_div_mul]

end Sys2Proof.Machine
end

section
/-! SUPPORT. RX_BYTE case by case, as the whole next state (spec/41_frame_receiver.md R74 to R84), and the proofs of O34 to O39. -/

namespace Sys2Proof.Machine

open Claims (noted)

theorem step_of_rxByte {s : State} {b : Byte} {rest : List Op} (h : s.script = .rxByte b :: rest) :
    step s = rxByte b { s with script := rest } := step_some h

/-! ### A byte that ends no frame -/

/-- A byte that is no end marker and ends no start-marker pair is stored (R75). -/
theorem rxByte_store {b : Byte} {s : State} (hl : s.rxbuf.length = 32) (hroom : s.rxidx < 32) (hb : b ≠ Config.endMarker)
    (hpair : ¬ (b = Config.startMarker ∧ 1 ≤ s.rxidx ∧ s.rxbuf[s.rxidx - 1]? = some Config.startMarker)) :
    rxByte b s = .next { s with rxbuf := s.rxbuf.set s.rxidx b, rxidx := s.rxidx + 1 } := by
  rw [rxByte_other hb, rxResync_none (mt (rxStore_pair_iff hroom hl).1 hpair), rxStore_room hroom]

/-- A start marker after a start marker is stored, and then just the pair is kept (R75, R76). -/
theorem rxByte_resync {s : State} (hl : s.rxbuf.length = 32) (hroom : s.rxidx < 32) (hpos : 1 ≤ s.rxidx)
    (hlast : s.rxbuf[s.rxidx - 1]? = some Config.startMarker) :
    rxByte Config.startMarker s = .next { s with
      rxbuf := ((s.rxbuf.set s.rxidx Config.startMarker).set 0 Config.startMarker).set 1 Config.startMarker, rxidx := 2 } := by
  rw [rxByte_other (by decide), rxResync_pair ((rxStore_pair_iff hroom hl).2 ⟨rfl, hpos, hlast⟩), rxStore_room hroom]

/-- Settles O36, by the receiver's store. -/
theorem byteIsStoredWhileRoomRemains : Obligations.ByteIsStoredWhileRoomRemains := by
  intro s b rest hs hl hroom hb hpair
  rw [step_of_rxByte hs]
  exact rxByte_store (s := { s with script := rest }) hl hroom hb hpair

/-- Settles O37: the buffer is the resynchronized one, whose first two bytes are the pair. -/
theorem startPairDiscardsWhatCameBefore : Obligations.StartPairDiscardsWhatCameBefore := by
  intro s rest hs hl hroom hpos hlast
  rw [step_of_rxByte hs]
  exact ⟨_, by simp [hl], take_two_pair (by simp [hl]), rxByte_resync (s := { s with script := rest }) hl hroom hpos hlast⟩

/-! ### An end marker -/

/-- A buffer whose held bytes decode to an instruction runs it, with nothing held (R78, R80, R81). -/
theorem rxFinish_of_decode {s : State} {i : Instr} (hidx : s.rxidx ≤ s.rxbuf.length)
    (hd : decode (s.rxbuf.take s.rxidx) = .ok i) : rxFinish s = exec i s.rxClear := by
  obtain ⟨hmin, -, hi⟩ := (decode_ok_iff _ _).1 hd
  rw [List.length_take_of_le hidx] at hmin hi
  rw [rxFinish_complete hmin, ← frameOfBuffer_take _ _ hmin, hi]

/-- Settles O34: the bytes held once the marker is stored are those held before it and the marker. -/
theorem stepRunsTheDecodedInstruction : Obligations.StepRunsTheDecodedInstruction := by
  intro s rest i hs hl hroom hd
  rw [step_of_rxByte hs]
  rw [← take_set_append _ (hl ▸ hroom)] at hd
  refine (rxByte_end_room (s := { s with script := rest }) hroom).trans (rxFinish_of_decode ?_ hd)
  simpa [hl] using hroom

/-- Settles O38: with at most four bytes held, the stored marker makes no complete frame. -/
theorem shortFrameIsDiscarded : Obligations.ShortFrameIsDiscarded := by
  intro s rest hs hidx
  have hshort : ¬ 6 ≤ s.rxidx + 1 := by omega
  rw [step_of_rxByte hs]
  exact (rxByte_end_room (s := { s with script := rest }) (show s.rxidx < 32 by omega)).trans (rxFinish_short hshort)

/-- Settles O39: a short frame is discarded with the buffer emptied, and a command runs on an empty buffer, completes and keeps it so. -/
theorem endMarkerAlwaysEmptiesBuffer : Obligations.EndMarkerAlwaysEmptiesBuffer := by
  intro s rest hs
  rw [step_of_rxByte hs]
  obtain ⟨hne, -⟩ | ⟨-, -, he⟩ | ⟨-, -, i, -, he⟩ := rxByte_cases Config.endMarker { s with script := rest }
  · exact absurd rfl hne
  · exact ⟨_, he, rfl⟩
  · obtain ⟨t, ht, -⟩ := exec_effect i (rxResync (rxStore Config.endMarker { s with script := rest })).rxClear
    obtain ⟨hidx, -⟩ := exec_receiver ht
    exact ⟨t, he.trans ht, hidx⟩

/-! ### The full buffer -/

/-- A full buffer drops the byte, whatever it is, and never ends in a start-marker pair (R75, R84, R86). -/
theorem rxResync_rxStore_full {s : State} (b : Byte) (h : Safety.Inv s = true) (hfull : s.rxidx = 32) :
    rxResync (rxStore b s) = s.diag .rxOverflowDrop := by
  have hroom : ¬ s.rxidx < 32 := by omega
  rw [rxStore_full hroom, rxResync_none (not_endsInStartPair_of_full (inv_emit _ h) hroom)]

/-- Settles O35: steps 1 and 2 only note the overflow, and step 3 of an end marker finds the 32 bytes held. -/
theorem fullBufferDropsThenDispatches : Obligations.FullBufferDropsThenDispatches := by
  intro s b rest hinv hfull hs
  obtain ⟨-, -, -, hl, -⟩ := (inv_iff s).1 hinv
  have hdrop : rxResync (rxStore b { s with script := rest }) = noted { s with script := rest } [.rxOverflowDrop] :=
    rxResync_rxStore_full (s := { s with script := rest }) b hinv hfull
  rw [step_of_rxByte hs]
  refine ⟨fun hb => by rw [rxByte_other hb, hdrop], fun hb i hd => ⟨?_, ?_⟩⟩
  · obtain ⟨-, -, rfl⟩ := (decode_ok_iff _ _).1 hd
    rw [operands_decodeFrame, hl]
    rfl
  · have hheld : s.rxbuf.take s.rxidx = s.rxbuf := List.take_of_length_le (by omega)
    subst hb
    rw [rxByte_end, hdrop]
    exact rxFinish_of_decode (s := noted { s with script := rest } [.rxOverflowDrop]) (hfull.trans hl.symm).le
      ((congrArg decode hheld).trans hd)

end Sys2Proof.Machine
end

section
/-! SUPPORT. Each command's whole next state, with its one effect written out (spec/42_dispatcher.md R91 to R115), and the proofs of
O13 to O30 and O32. -/

namespace Sys2Proof.Machine

open Claims

/-! ### What DISPATCH selects (R91) -/

section
variable (a2 a3 : Byte) (p : List Byte) (s : State)

theorem exec_getFrequency : exec (.getFrequency a2 a3 p) s = answer a2 a3 0x03 (bcdEncode s.channel.freq.toNat) s := rfl

theorem exec_getSquelch : exec (.getSquelch a2 a3 p) s = answer a2 a3 0x15 [s.channel.sql] s := rfl

theorem exec_getRssi : exec (.getRssi a2 a3 p) s = answer a2 a3 0x19 (le16 s.rssiSample) s.rssiUsed := rfl

theorem exec_getRfGain : exec (.getRfGain a2 a3 p) s = answer a2 a3 0x1D [s.channel.gain] s := rfl

theorem exec_getBandwidth : exec (.getBandwidth a2 a3 p) s = answer a2 a3 0x1F [s.channel.bw] s := rfl

theorem exec_getTxPower : exec (.getTxPower a2 a3 p) s = answer a2 a3 0x21 [s.channel.txp] s := rfl

theorem exec_getStatus : exec (.getStatus a2 a3 p) s = answer a2 a3 0x22 (le16 s.channel.stat) s := rfl

theorem exec_setFrequency : exec (.setFrequency a2 a3 p) s = execSetFrequency p s := rfl

theorem exec_setMode : exec (.setMode a2 a3 p) s = setScalar p (fun c x => { c with mode := x }) .mode s := rfl

theorem exec_setSquelch : exec (.setSquelch a2 a3 p) s = setScalar p (fun c x => { c with sql := x }) .sql s := rfl

theorem exec_setRfGain : exec (.setRfGain a2 a3 p) s = setScalar p (fun c x => { c with gain := x }) .gain s := rfl

theorem exec_setBandwidth : exec (.setBandwidth a2 a3 p) s = setScalar p (fun c x => { c with bw := x }) .bw s := rfl

theorem exec_setTxPower : exec (.setTxPower a2 a3 p) s = setScalar p (fun c x => { c with txp := x }) .txp s := rfl

end

/-! ### The GET commands -/

/-- Every GET's outcome: the reply of the payload it computes is accepted, or dropped when the queue is full (R126, R127). -/
theorem answer_outcome (s : State) (a2 a3 c : Byte) (payload : List Byte) :
    (s.qn < 10 → answer a2 a3 c payload s =
      .next (accepted s (6 + payload.length) ([0xFE, 0xFE, a2, a3, c] ++ payload ++ [0xFD]))) ∧
    (¬ s.qn < 10 → answer a2 a3 c payload s = .next (noted s [.queueFull])) := by
  constructor
  · intro hroom
    rw [answer_eq, State.enqueue_of_room _ hroom]; rfl
  · intro hfull
    rw [answer_eq, State.enqueue_of_full _ hfull]; rfl

/-- The sample is the value an RSSI line set, else the free draw (R64, R140). -/
theorem State.rssiSample_eq {s : State} {r : BitVec 16}
    (h : s.rssiNext = some r ∨ (s.rssiNext = none ∧ r = Config.rssiIn s.rssiDraws)) : s.rssiSample = r := by
  obtain hset | ⟨hnone, rfl⟩ := h
  · rw [State.rssiSample, hset, Option.getD_some]
  · rw [State.rssiSample, hnone, Option.getD_none]

/-- Settles O13: the payload is the BCD form of FREQ, its five pairs written out by O3. -/
theorem getFrequencyRepliesWithBcd : Obligations.GetFrequencyRepliesWithBcd := by
  intro s a2 a3 p c hc
  rw [exec_getFrequency, State.channel_of_get hc, bcdEncodeFillsFivePairs c.freq.toNat]
  exact answer_outcome s a2 a3 0x03 _

/-- Settles O14. -/
theorem getSquelchRepliesWithSquelch : Obligations.GetSquelchRepliesWithSquelch := by
  intro s a2 a3 p c hc
  rw [exec_getSquelch, State.channel_of_get hc]
  exact answer_outcome s a2 a3 0x15 [c.sql]

/-- Settles O15: the reply carries the sample and joins the queue of the state with the sample used up. -/
theorem getRssiRepliesWithSample : Obligations.GetRssiRepliesWithSample := by
  intro s a2 a3 p r hr
  rw [exec_getRssi, State.rssiSample_eq hr, le16_eq]
  exact answer_outcome s.rssiUsed a2 a3 0x19 _

/-- Settles O16. -/
theorem getRfGainRepliesWithGain : Obligations.GetRfGainRepliesWithGain := by
  intro s a2 a3 p c hc
  rw [exec_getRfGain, State.channel_of_get hc]
  exact answer_outcome s a2 a3 0x1D [c.gain]

/-- Settles O17. -/
theorem getBandwidthRepliesWithBandwidth : Obligations.GetBandwidthRepliesWithBandwidth := by
  intro s a2 a3 p c hc
  rw [exec_getBandwidth, State.channel_of_get hc]
  exact answer_outcome s a2 a3 0x1F [c.bw]

/-- Settles O18. -/
theorem getTxPowerRepliesWithPower : Obligations.GetTxPowerRepliesWithPower := by
  intro s a2 a3 p c hc
  rw [exec_getTxPower, State.channel_of_get hc]
  exact answer_outcome s a2 a3 0x21 [c.txp]

/-- Settles O19: the payload is STAT split low byte first. -/
theorem getStatusRepliesLowByteFirst : Obligations.GetStatusRepliesLowByteFirst := by
  intro s a2 a3 p c hc
  rw [exec_getStatus, State.channel_of_get hc, le16_eq]
  exact answer_outcome s a2 a3 0x22 _

/-! ### The SET commands -/

/-- A setter's write as a whole state: one record, one flag (R23, R24). -/
theorem State.setFlag_setChannel (s : State) (c : Channel) (flag : ChangeFlag) :
    (s.setChannel c).setFlag flag = { s with vfo := s.vfo.set s.cur c, chg := s.chg ||| (1#8 <<< flagBit flag) } := rfl

/-- A diag event as a whole state (R150). -/
theorem State.diag_eq_noted (s : State) (c : DiagCode) : s.diag c = noted s [c] := rfl

/-- A one-byte setter's outcome on a payload with a first byte. -/
theorem setScalar_store {s : State} {c : Channel} (hc : s.vfo[s.cur]? = some c) (x : Byte) (extra : List Byte)
    (f : Channel → Byte → Channel) (flag : ChangeFlag) :
    setScalar (x :: extra) f flag s =
      .next { s with vfo := s.vfo.set s.cur (f c x), chg := s.chg ||| (1#8 <<< flagBit flag) } := by
  rw [setScalar_cons, State.channel_of_get hc, State.setFlag_setChannel]

theorem execSetFrequency_store {p : List Byte} (h : 5 ≤ p.length) (s : State) :
    execSetFrequency p s =
      .next ((s.setChannel { s.channel with freq := BitVec.ofNat 34 (bcdDecode (p.take 5)) }).setFlag .freq) := if_pos h

theorem execSetFrequency_short {p : List Byte} (h : p.length < 5) (s : State) :
    execSetFrequency p s = .next (noted s [.setPayloadShort]) := if_neg (Nat.not_le.2 h)

/-- Settles O20: five bytes decode to less than `2^34` (O2), so the register holds their weighted sum (O1) untruncated. -/
theorem setFrequencyStoresDecodedNumber : Obligations.SetFrequencyStoresDecodedNumber := by
  constructor
  · intro s a2 a3 b0 b1 b2 b3 b4 extra c hc
    obtain ⟨-, hfits⟩ := bcdDecodeFitsFreqRegister.1 [b0, b1, b2, b3, b4] rfl
    refine ⟨BitVec.ofNat 34 (bcdDecode [b0, b1, b2, b3, b4]), ?_, ?_⟩
    · rw [BitVec.toNat_ofNat, Nat.mod_eq_of_lt hfits]
      exact bcdDecodeWeighsFivePairs b0 b1 b2 b3 b4
    · rw [exec_setFrequency, execSetFrequency_store (by simp), State.channel_of_get hc, State.setFlag_setChannel]
      rfl
  · exact fun s _ _ _ hshort => execSetFrequency_short hshort s

/-- Settles O21. -/
theorem setModeStoresFirstByte : Obligations.SetModeStoresFirstByte :=
  ⟨fun _ _ _ _ _ _ hc => (exec_setMode ..).trans (setScalar_store hc ..),
    fun _ _ _ => (exec_setMode ..).trans (setScalar_nil ..)⟩

/-- Settles O22. -/
theorem setSquelchStoresFirstByte : Obligations.SetSquelchStoresFirstByte :=
  ⟨fun _ _ _ _ _ _ hc => (exec_setSquelch ..).trans (setScalar_store hc ..),
    fun _ _ _ => (exec_setSquelch ..).trans (setScalar_nil ..)⟩

/-- Settles O23. -/
theorem setRfGainStoresFirstByte : Obligations.SetRfGainStoresFirstByte :=
  ⟨fun _ _ _ _ _ _ hc => (exec_setRfGain ..).trans (setScalar_store hc ..),
    fun _ _ _ => (exec_setRfGain ..).trans (setScalar_nil ..)⟩

/-- Settles O24. -/
theorem setBandwidthStoresFirstByte : Obligations.SetBandwidthStoresFirstByte :=
  ⟨fun _ _ _ _ _ _ hc => (exec_setBandwidth ..).trans (setScalar_store hc ..),
    fun _ _ _ => (exec_setBandwidth ..).trans (setScalar_nil ..)⟩

/-- Settles O25. -/
theorem setTxPowerStoresFirstByte : Obligations.SetTxPowerStoresFirstByte :=
  ⟨fun _ _ _ _ _ _ hc => (exec_setTxPower ..).trans (setScalar_store hc ..),
    fun _ _ _ => (exec_setTxPower ..).trans (setScalar_nil ..)⟩

/-- Settles O26: the meaning is the flag alone. -/
theorem setMonitorSetsItsFlagOnly : Obligations.SetMonitorSetsItsFlagOnly := fun _ _ _ _ => rfl

/-! ### The commands that only note -/

/-- Settles O27: each meaning is the diag event alone. -/
theorem unimplementedCommandsOnlyNote : Obligations.UnimplementedCommandsOnlyNote := by
  intro s a2 a3 p
  have hnote := congrArg (Host.Outcome.next (φ := Fault) (ρ := Refusal)) (s.diag_eq_noted .cmdUnimplemented)
  exact ⟨hnote, hnote, hnote, hnote, hnote⟩

/-- Settles O28: the meaning is the diag event alone. -/
theorem unrecognizedCommandOnlyNotes : Obligations.UnrecognizedCommandOnlyNotes :=
  fun s _ _ _ _ => congrArg Host.Outcome.next (s.diag_eq_noted .cmdUnrecognized)

/-! ### Commands that consult no payload -/

theorem unlisted_of_fallback {a2 a3 cmd : Byte} {p : List Byte} (h : fallbackUnlisted (.unrecognized a2 a3 cmd p) = true) :
    cmd ∉ commandCodes := by
  simpa [fallbackUnlisted] using h

/-- A fallback's command byte is none of the setters' (R55, R111). -/
theorem ignoresPayload_of_unlisted {cmd : Byte} (h : cmd ∉ commandCodes) : ignoresPayload cmd := by
  have hsetters : ([0x05, 0x06, 0x14, 0x1C, 0x1E, 0x20] : List Byte) ⊆ commandCodes := by decide
  exact fun hcmd => h (hsetters hcmd)

/-- Who reads the payload: SET_FREQUENCY, the five one-byte setters, and no other command (R112, R113). -/
theorem exec_payload_cases {i : Instr} (hwf : i.wf = true) :
    (commandByte i = 0x05 ∧ ∀ s, exec i s = execSetFrequency (operands i).2.2 s) ∨
    (commandByte i ∈ ([0x06, 0x14, 0x1C, 0x1E, 0x20] : List Byte) ∧
      ∃ f flag, ∀ s, exec i s = setScalar (operands i).2.2 f flag s) ∨
    ignoresPayload (commandByte i) := by
  obtain ⟨-, hunlisted⟩ := i.wf_iff.1 hwf
  cases i with
  | setFrequency a2 a3 p => exact .inl ⟨rfl, exec_setFrequency a2 a3 p⟩
  | setMode a2 a3 p => exact .inr (.inl ⟨by simp [commandByte], _, _, exec_setMode a2 a3 p⟩)
  | setSquelch a2 a3 p => exact .inr (.inl ⟨by simp [commandByte], _, _, exec_setSquelch a2 a3 p⟩)
  | setRfGain a2 a3 p => exact .inr (.inl ⟨by simp [commandByte], _, _, exec_setRfGain a2 a3 p⟩)
  | setBandwidth a2 a3 p => exact .inr (.inl ⟨by simp [commandByte], _, _, exec_setBandwidth a2 a3 p⟩)
  | setTxPower a2 a3 p => exact .inr (.inl ⟨by simp [commandByte], _, _, exec_setTxPower a2 a3 p⟩)
  | unrecognized a2 a3 cmd p =>
    exact .inr (.inr (ignoresPayload_of_unlisted (unlisted_of_fallback hunlisted)))
  | _ => exact .inr (.inr (by simp [ignoresPayload, commandByte]))

/-- A command that consults no payload does what the same frame with an empty payload does (R113). -/
theorem exec_eq_exec_emptyPayload {i : Instr} (hwf : i.wf = true) (hi : ignoresPayload (commandByte i)) (s : State) :
    exec i s = exec (decodeFrame ⟨(operands i).1, (operands i).2.1, commandByte i, []⟩) s := by
  obtain ⟨-, hunlisted⟩ := i.wf_iff.1 hwf
  cases i with
  | setFrequency a2 a3 p | setMode a2 a3 p | setSquelch a2 a3 p | setRfGain a2 a3 p | setBandwidth a2 a3 p | setTxPower a2 a3 p =>
    exact absurd hi (by simp [ignoresPayload, commandByte])
  | unrecognized a2 a3 cmd p =>
    have hempty := (decodeFrame_eq_unrecognized_iff ⟨a2, a3, cmd, []⟩).2 (unlisted_of_fallback hunlisted)
    show _ = exec (decodeFrame ⟨a2, a3, cmd, []⟩) s
    rw [hempty]; rfl
  | _ => rfl

/-- Settles O30: both do what the same frame without a payload does. -/
theorem gettersNeverConsultPayload : Obligations.GettersNeverConsultPayload := by
  intro i j s hi hj hcmd hignores ha2 ha3
  rw [exec_eq_exec_emptyPayload hi hignores, exec_eq_exec_emptyPayload hj (hcmd ▸ hignores), hcmd, ha2, ha3]

/-! ### SET_PAYLOAD_SHORT -/

theorem diag_eq_short_iff (c : DiagCode) (s : State) :
    (.next (s.diag c) : Host.Outcome State Fault Refusal) = .next (noted s [.setPayloadShort]) ↔ c = .setPayloadShort := by
  simp [State.diag_eq_noted, noted]

/-- A next state whose outputs are not one SET_PAYLOAD_SHORT more is not the effect of a short setter. -/
theorem next_ne_short_of_out {s t : State} (h : t.out ≠ s.out ++ [.diag .setPayloadShort]) :
    (.next t : Host.Outcome State Fault Refusal) ≠ .next (noted s [.setPayloadShort]) := by
  rintro ⟨⟩
  exact h rfl

/-- A write sets a field and a flag, and emits nothing (R112, R114). -/
theorem write_ne_short (c : Channel) (flag : ChangeFlag) (s : State) :
    (.next ((s.setChannel c).setFlag flag) : Host.Outcome State Fault Refusal) ≠ .next (noted s [.setPayloadShort]) :=
  next_ne_short_of_out (by simp)

/-- A GET emits nothing, or QUEUE_FULL (R126, R127). -/
theorem State.enqueue_out_ne_short (s : State) (m : Message) : (s.enqueue m).out ≠ s.out ++ [.diag .setPayloadShort] := by
  obtain ⟨-, he⟩ | ⟨-, he⟩ := s.enqueue_cases m <;> simp [he]

theorem setScalar_eq_short_iff (p : List Byte) (f : Channel → Byte → Channel) (flag : ChangeFlag) (s : State) :
    setScalar p f flag s = .next (noted s [.setPayloadShort]) ↔ p.length = 0 := by
  cases p with
  | nil => exact iff_of_true (setScalar_nil f flag s) rfl
  | cons x extra => exact iff_of_false (write_ne_short _ _ s) (by simp)

theorem execSetFrequency_eq_short_iff (p : List Byte) (s : State) :
    execSetFrequency p s = .next (noted s [.setPayloadShort]) ↔ p.length < 5 := by
  refine ⟨fun h => ?_, fun h => execSetFrequency_short h s⟩
  by_contra hlong
  rw [execSetFrequency_store (Nat.not_lt.1 hlong)] at h
  exact write_ne_short _ _ s h

/-- A command that consults no payload never finds it short (R113). -/
theorem exec_ne_short {i : Instr} (hi : ignoresPayload (commandByte i)) (s : State) :
    exec i s ≠ .next (noted s [.setPayloadShort]) := by
  cases i with
  | setFrequency a2 a3 p | setMode a2 a3 p | setSquelch a2 a3 p | setRfGain a2 a3 p | setBandwidth a2 a3 p | setTxPower a2 a3 p =>
    exact absurd hi (by simp [ignoresPayload, commandByte])
  | setAgc a2 a3 p | setStep17 a2 a3 p | setScan a2 a3 p | setStep23 a2 a3 p | getStep a2 a3 p | unrecognized a2 a3 cmd p =>
    exact mt (diag_eq_short_iff _ s).1 (by decide)
  | setMonitor a2 a3 p => exact next_ne_short_of_out (by simp)
  | getRssi a2 a3 p => exact next_ne_short_of_out (s.rssiUsed.enqueue_out_ne_short _)
  | _ => exact next_ne_short_of_out (s.enqueue_out_ne_short _)

theorem not_shortSetter_of_ignoresPayload {cmd : Byte} (h : ignoresPayload cmd) (n : Nat) : ¬ shortSetter cmd n := by
  rintro (⟨rfl, -⟩ | ⟨hcmd, -⟩)
  · exact h (by decide)
  · exact h (List.mem_cons_of_mem _ hcmd)

theorem shortSetter_frequency_iff (n : Nat) : shortSetter 0x05 n ↔ n < 5 := by simp [shortSetter]

/-- SET_FREQUENCY apart, a setter's payload is short when it is empty (R112). -/
theorem shortSetter_scalar_iff {cmd : Byte} (h : cmd ∈ ([0x06, 0x14, 0x1C, 0x1E, 0x20] : List Byte)) (n : Nat) :
    shortSetter cmd n ↔ n = 0 := by
  have hne : cmd ≠ 0x05 := by rintro rfl; exact absurd h (by decide)
  simp only [shortSetter, hne, h, false_and, true_and, false_or]

/-- Settles O29: a setter notes exactly a payload shorter than it needs, and no other command emits the code. -/
theorem shortPayloadNoteMeansShortSetter : Obligations.ShortPayloadNoteMeansShortSetter := by
  intro i s hwf
  obtain ⟨hcmd, hexec⟩ | ⟨hcmd, f, flag, hexec⟩ | hignores := exec_payload_cases hwf
  · rw [hcmd, hexec, shortSetter_frequency_iff, execSetFrequency_eq_short_iff]
  · rw [hexec, shortSetter_scalar_iff hcmd, setScalar_eq_short_iff]
  · exact iff_of_false (not_shortSetter_of_ignoresPayload hignores _) (exec_ne_short hignores s)

/-! ### One effect -/

/-- A setter's write is one of the statements' writes, of the field whose flag it sets (R23). -/
theorem FieldWrite.writesFieldOfFlag {c c' : Channel} {f : ChangeFlag} (h : FieldWrite c f c') :
    Claims.writesFieldOfFlag (flagBit f) c c' := by
  cases h <;> simp [Claims.writesFieldOfFlag, flagBit]

/-- A reply, accepted or dropped, leaves the RSSI input alone. -/
theorem State.enqueue_rssi (s : State) (m : Message) :
    (s.enqueue m).rssiNext = s.rssiNext ∧ (s.enqueue m).rssiDraws = s.rssiDraws := by
  obtain ⟨-, he⟩ | ⟨-, he⟩ := s.enqueue_cases m <;> rw [he] <;> exact ⟨rfl, rfl⟩

/-- Only GET_RSSI samples the RSSI input (R140). -/
theorem exec_rssiKept {i : Instr} {s t : State} (h : exec i s = .next t) (hcmd : commandByte i ≠ 0x19) :
    t.rssiNext = s.rssiNext ∧ t.rssiDraws = s.rssiDraws := by
  cases exec_cases h with
  | note c _ => exact ⟨rfl, rfl⟩
  | flag => exact ⟨rfl, rfl⟩
  | write c f _ => exact ⟨rfl, rfl⟩
  | reply p _ => exact s.enqueue_rssi _
  | sample p _ hrssi => exact absurd hrssi hcmd

/-- A reply is dropped with a diag event, or accepted, whether or not the command has used up the RSSI sample. -/
theorem State.enqueue_oneEffect {s u : State} (m : Message) (h : alikeButRssi u s) :
    (∃ c, alikeButRssi (u.enqueue m) (noted s [c])) ∨
      ∃ len data, s.qn < 10 ∧ alikeButRssi (u.enqueue m) (accepted s len data) := by
  rw [h]
  obtain ⟨hroom, he⟩ | ⟨-, he⟩ := State.enqueue_cases { s with rssiNext := u.rssiNext, rssiDraws := u.rssiDraws } m
  · exact .inr ⟨m.len, m.data, hroom, by rw [he]; rfl⟩
  · exact .inl ⟨.queueFull, by rw [he]; rfl⟩

/-- Settles O32, by the cases of `CommandEffect`. -/
theorem commandsHaveOneEffect : Obligations.CommandsHaveOneEffect := by
  intro i s t h
  refine ⟨exec_rssiKept h, ?_⟩
  cases exec_cases h with
  | note c _ => exact .inl ⟨c, rfl⟩
  | flag => exact .inr (.inl rfl)
  | write c' f hw =>
    refine .inr (.inr (.inl ⟨flagBit f, c', rfl, fun c hc => ?_⟩))
    rw [← State.channel_of_get hc]
    exact hw.writesFieldOfFlag
  | reply p _ => exact (State.enqueue_oneEffect (u := s) _ rfl).imp_right fun hacc => .inr (.inr hacc)
  | sample p _ _ => exact (State.enqueue_oneEffect (u := s.rssiUsed) _ rfl).imp_right fun hacc => .inr (.inr hacc)

end Sys2Proof.Machine
end

section
/-! SUPPORT. The reply that a command queues (spec/43_outbound_encoder.md R117, R118, R122), and the proof of O33. -/

namespace Sys2Proof.Machine

/-- The message is a reply to `i`: it echoes the request's address bytes and command, with a payload of one of the three forms
(R117, R118, R122). -/
def RepliesTo (i : Instr) (m : Message) : Prop :=
  ∃ payload : List Byte, (payload.length = 1 ∨ payload.length = 2 ∨ payload.length = 5) ∧
    m = reply (operands i).1 (operands i).2.1 (commandByte i) payload

/-- A message added to the tail is counted (R28). -/
theorem State.qn_of_pending_append {s t : State} {m : Message} (h : t.pending = s.pending ++ [m]) : t.qn = s.qn + 1 := by
  rw [← t.length_pending, h, List.length_append, s.length_pending, List.length_singleton]

/-- The only message a command adds to the queue is a reply to it (R114, R117, R126). -/
theorem exec_pending {i : Instr} {s t : State} (hq : s.q.length = Config.qCap) (h : exec i s = .next t) :
    t.pending = s.pending ∨ ∃ m, RepliesTo i m ∧ t.pending = s.pending ++ [m] := by
  cases exec_cases h with
  | note c _ => exact .inl rfl
  | flag => exact .inl rfl
  | write c f _ => exact .inl rfl
  | reply p hp => exact (State.enqueue_pending _ hq).imp_right fun hm => ⟨_, ⟨p, hp, rfl⟩, hm⟩
  | sample p hp _ =>
    exact (State.enqueue_pending (s := s.rssiUsed) _ hq).imp_right fun hm => ⟨_, ⟨p, .inr (.inl hp), rfl⟩, hm⟩

/-- Settles O33: a message that joined the tail is a reply to the command, and there was room for it because the state after the
command still meets the invariant. -/
theorem repliesJoinTheTail : Obligations.RepliesJoinTheTail := by
  intro i s t hinv h
  obtain ⟨-, -, -, -, -, hq, -⟩ := (inv_iff s).1 hinv
  refine (exec_pending hq h).imp_right ?_
  rintro ⟨_, ⟨payload, hlen, rfl⟩, hjoin⟩
  obtain ⟨-, -, -, -, -, -, -, hcount, -⟩ := (inv_iff t).1 (exec_inv hinv h)
  have hroom : s.qn < 10 := by rw [State.qn_of_pending_append hjoin] at hcount; exact hcount
  refine ⟨_, payload, hroom, hjoin, rfl, ?_, ?_⟩
  · simp [reply]; omega
  · simp [reply]; omega

end Sys2Proof.Machine
end

section
/-! SUPPORT. DRAIN as the whole next state, and the count of the messages still queued and those that left the queue
(spec/44_transmission_queue.md R126 to R132); and the proofs of O44, O45 and O47. -/

namespace Sys2Proof.Machine

open Claims (leftQueue)

/-! ### DRAIN -/

/-- A DRAIN with nothing queued (R129). -/
theorem drain_of_empty {space : Int} {s : State} (hs : 0 ≤ space) (hn : s.qn = 0) : drain space s = .next s := by
  rw [drain, if_neg (by omega), if_pos hn]

/-- The head slot holds a legal message (R28, R122). -/
theorem legalMessage_headMessage {s : State} (h : Safety.Inv s = true) : Safety.legalMessage s.headMessage = true := by
  obtain ⟨-, -, -, -, -, hq, hqh, -, hmsg, -⟩ := (inv_iff s).1 h
  have hslot : s.qh < s.q.length := by omega
  rw [State.headMessage, List.getD_eq_getElem _ _ hslot]
  exact hmsg _ (List.getElem_mem hslot)

/-- A legal message has just the bytes that its length counts (R122). -/
theorem take_len_of_legalMessage {m : Message} (h : Safety.legalMessage m = true) : m.data.take m.len = m.data := by
  rw [Safety.legalMessage, Bool.and_eq_true, beq_iff_eq] at h
  obtain ⟨-, hlen⟩ := h
  exact List.take_of_length_le hlen.le

/-- A DRAIN with something queued pops the head, and writes it whole if it fits (R128, R130). -/
theorem drain_of_nonempty {space : Int} {s : State} (h : Safety.Inv s = true) (hs : 0 ≤ space) (hn : s.qn ≠ 0) :
    drain space s = .next (s.pop.emit
      (if (s.headMessage.len : Int) ≤ space then .txWrite s.headMessage.data else .diag .txSpaceDrop)) := by
  rw [drain, if_neg (by omega), if_neg hn, take_len_of_legalMessage (legalMessage_headMessage h)]
  split_ifs <;> rfl

/-- The oldest queued message stands in the head slot, and popping it leaves the others (R28, R128). -/
theorem pending_eq_cons {s : State} (h : Safety.Inv s = true) (hn : s.qn ≠ 0) :
    s.pending = s.headMessage :: s.pop.pending := by
  obtain ⟨-, -, -, -, -, -, hqh, -⟩ := (inv_iff s).1 h
  rw [State.pending_pop hn, Nat.mod_eq_of_lt hqh, State.headMessage]

/-- Settles O44: the oldest message is the head slot's, and it is written whole or dropped. -/
theorem drainTakesTheOldestMessage : Obligations.DrainTakesTheOldestMessage := by
  intro s space rest m ms hinv hs hspace hpending
  have hn : s.qn ≠ 0 := by
    rw [← s.length_pending, hpending, List.length_cons]; exact Nat.succ_ne_zero _
  rw [pending_eq_cons hinv hn] at hpending
  obtain ⟨rfl, hrest⟩ := List.cons.inj hpending
  exact ⟨_, (step_some hs).trans (drain_of_nonempty (s := { s with script := rest }) hinv hspace hn), hrest, rfl⟩

/-- Settles O45, by performing the DRAIN at the head of the script. -/
theorem drainOfEmptyQueueDoesNothing : Obligations.DrainOfEmptyQueueDoesNothing := by
  intro s space rest hs hspace hn
  exact (step_some hs).trans (drain_of_empty (s := { s with script := rest }) hspace hn)

/-! ### Messages queued or gone -/

theorem leftQueue_append (before after : List Event) : leftQueue (before ++ after) = leftQueue before + leftQueue after := by
  simp only [leftQueue, Safety.writesOf, Safety.diagsOf, List.filterMap_append, List.length_append, List.count_append]
  omega

/-- Of the diag events, only TX_SPACE_DROP tells of a message that left the queue (R130). -/
theorem leftQueue_diag {c : DiagCode} (h : c ≠ .txSpaceDrop) : leftQueue [.diag c] = 0 := by
  show 0 + [c].count DiagCode.txSpaceDrop = 0
  rw [Nat.zero_add, List.count_eq_zero, List.mem_singleton]
  exact h.symm

/-- How many messages are queued, or have been written or dropped for want of space (R132). -/
def State.queuedOrLeft (s : State) : Nat := s.qn + leftQueue s.out

theorem State.queuedOrLeft_emit (s : State) {e : Event} (he : leftQueue [e] = 0) :
    (s.emit e).queuedOrLeft = s.queuedOrLeft := by
  rw [queuedOrLeft, emit_qn, emit_out, leftQueue_append, he, Nat.add_zero, queuedOrLeft]

@[simp] theorem State.queuedOrLeft_rxClear (s : State) : s.rxClear.queuedOrLeft = s.queuedOrLeft := rfl

/-- A message taken off the queue is counted again by the event that says where it went (R128, R130). -/
theorem State.queuedOrLeft_pop_emit {s : State} {e : Event} (hn : s.qn ≠ 0) (he : leftQueue [e] = 1) :
    (s.pop.emit e).queuedOrLeft = s.queuedOrLeft := by
  rw [queuedOrLeft, emit_qn, emit_out, leftQueue_append, he, pop_qn, pop_out, queuedOrLeft]
  omega

/-- From `s` to `t`, no message was lost; or one joined the queue, which had room for it. -/
def AtMostOneJoins (s t : State) : Prop :=
  t.queuedOrLeft = s.queuedOrLeft ∨ (s.qn < 10 ∧ t.queuedOrLeft = s.queuedOrLeft + 1)

/-- A reply joins the queue if there is room; one dropped by a full queue never joined it (R126, R127). -/
theorem State.enqueue_atMostOneJoins (s : State) (m : Message) : AtMostOneJoins s (s.enqueue m) := by
  obtain ⟨hroom, he⟩ | ⟨-, he⟩ := s.enqueue_cases m <;> rw [he]
  · exact .inr ⟨hroom, Nat.add_right_comm ..⟩
  · exact .inl (s.queuedOrLeft_emit rfl)

theorem exec_atMostOneJoins {i : Instr} {s t : State} (h : exec i s = .next t) : AtMostOneJoins s t := by
  cases exec_cases h with
  | note c hc =>
    have hcode : c ≠ .txSpaceDrop := by rintro rfl; simp at hc
    exact .inl (s.queuedOrLeft_emit (leftQueue_diag hcode))
  | flag => exact .inl rfl
  | write c f _ => exact .inl rfl
  | reply p _ => exact s.enqueue_atMostOneJoins _
  | sample p _ _ => exact s.rssiUsed.enqueue_atMostOneJoins _

/-- Steps 1 and 2 of the receiver note at most an overflow. -/
theorem rxResync_rxStore_queue (b : Byte) (s : State) :
    (rxResync (rxStore b s)).qn = s.qn ∧ (rxResync (rxStore b s)).queuedOrLeft = s.queuedOrLeft := by
  obtain ⟨buf, idx, codes, he, hcodes⟩ := rxResync_rxStore_frame b s
  rw [he]
  obtain rfl | ⟨rfl, -⟩ := hcodes
  · exact ⟨rfl, by rw [State.queuedOrLeft, List.map_nil, List.append_nil, State.queuedOrLeft]⟩
  · exact ⟨rfl, s.queuedOrLeft_emit (e := .diag .rxOverflowDrop) rfl⟩

/-- A message joins the queue only at an end marker, through the command it dispatches (R81). -/
theorem rxByte_atMostOneJoins {b : Byte} {s t : State} (h : rxByte b s = .next t) :
    t.queuedOrLeft = s.queuedOrLeft ∨ (b = Config.endMarker ∧ AtMostOneJoins s t) := by
  obtain ⟨hqn, hkept⟩ := rxResync_rxStore_queue b s
  obtain ⟨-, he⟩ | ⟨-, -, he⟩ | ⟨hb, -, i, -, he⟩ := rxByte_cases b s <;> rw [he] at h
  · cases h; exact .inl hkept
  · cases h
    exact .inl (((rxResync (rxStore b s)).queuedOrLeft_emit (e := .diag .rxShortFrame) rfl).trans hkept)
  · have hcommand : AtMostOneJoins (rxResync (rxStore b s)).rxClear t := exec_atMostOneJoins h
    exact .inr ⟨hb, by rwa [AtMostOneJoins, State.rxClear_qn, State.queuedOrLeft_rxClear, hqn, hkept] at hcommand⟩

/-- DRAIN writes or drops what it takes off the queue (R128 to R130). -/
theorem drain_queuedOrLeft {space : Int} {s t : State} (h : drain space s = .next t) : t.queuedOrLeft = s.queuedOrLeft := by
  obtain ⟨-, ⟨-, rfl⟩ | ⟨hn, -, rfl⟩ | ⟨hn, -, rfl⟩⟩ := drain_cases h
  · rfl
  · exact State.queuedOrLeft_pop_emit hn rfl
  · exact State.queuedOrLeft_pop_emit hn rfl

/-- Every operation but RX_BYTE and RESET keeps the count (R132). -/
theorem perform_queuedOrLeft {op : Op} {s t : State} (hb : ∀ b, op ≠ .rxByte b) (hr : op ≠ .reset)
    (h : perform op s = .next t) : t.queuedOrLeft = s.queuedOrLeft := by
  cases op with
  | rxByte b => exact absurd rfl (hb b)
  | drain space => exact drain_queuedOrLeft h
  | readField v f => obtain ⟨c, field, -, -, rfl⟩ := readField_cases h; exact s.queuedOrLeft_emit rfl
  | readFlags => cases h; exact s.clearFlags.queuedOrLeft_emit rfl
  | inject v f x => obtain ⟨c, field, -, -, -, rfl⟩ := inject_cases h; rfl
  | selectVfo v => obtain ⟨-, rfl⟩ := selectVfo_cases h; rfl
  | reset => exact absurd rfl hr
  | rssi r => cases h; rfl

/-- Settles O47: the invariant of the next state bounds the queue, and the operation at the head of the script keeps the count, or is
an end marker whose command queued a reply. -/
theorem queueConservesMessages : Obligations.QueueConservesMessages := by
  intro s t hinv h hreset
  obtain ⟨-, -, -, -, -, -, -, hbound, -⟩ := (inv_iff t).1 (everyStepKeepsTheInvariant s t hinv h)
  refine ⟨hbound, ?_⟩
  obtain ⟨op, rest, hs, hp⟩ := step_next_head h
  rw [hs, List.head?_cons] at hreset ⊢
  by_cases hb : ∃ b, op = .rxByte b
  · obtain ⟨b, rfl⟩ := hb
    obtain hkept | ⟨rfl, hkept | ⟨hroom, hjoined⟩⟩ := rxByte_atMostOneJoins hp
    · exact .inl hkept
    · exact .inl hkept
    · exact .inr ⟨rfl, hroom, hjoined⟩
  · exact .inl (perform_queuedOrLeft (s := { s with script := rest }) (fun b hop => hb ⟨b, hop⟩)
      (fun hop => hreset (congrArg some hop)) hp)

end Sys2Proof.Machine
end

section
/-! SUPPORT. Each of the host's operations on a legal and on an illegal argument (spec/45_host_interface.md R135 to R138, R142), the
fields of a record by their selectors (R41), and the proofs of O48 to O53. -/

namespace Sys2Proof.Machine

open Safety (legalOp)

/-! ### The fields of a record, in the order of their selectors -/

/-- The selector that names the field (R41). -/
def Field.position : Field → Nat
  | .freq => 0
  | .mode => 1
  | .sql => 2
  | .gain => 3
  | .bw => 4
  | .txp => 5
  | .stat => 6

/-- The record's seven values, in the order of their selectors (R13, R41). -/
def Channel.values (c : Channel) : List Nat :=
  [c.freq.toNat, c.mode.toNat, c.sql.toNat, c.gain.toNat, c.bw.toNat, c.txp.toNat, c.stat.toNat]

/-- Every selector but 7 names the field of its position (R41). -/
theorem selectField_of_lt {f : BitVec 3} (h : f.toNat < 7) : ∃ field, selectField f = some field ∧ field.position = f.toNat := by
  have hne : selectField f ≠ none := by
    rw [Ne, selectField_none_iff]
    rintro rfl
    exact absurd h (by decide)
  obtain ⟨field, hfield⟩ := Option.ne_none_iff_exists'.1 hne
  have hposition : ∀ g : BitVec 3, ∀ named ∈ selectField g, named.position = g.toNat := by decide
  exact ⟨field, hfield, hposition f field hfield⟩

/-- The widths of R13 by selector. -/
theorem fieldWidth_eq (field : Field) :
    fieldWidth field = if field.position = 0 then 34 else if field.position ≤ 5 then 8 else 16 := by
  cases field <;> rfl

theorem Channel.values_position (c : Channel) (field : Field) : c.values[field.position]? = some (readChannel c field) := by
  cases field <;> rfl

/-- Writing a value that fits changes the one value of the field's position (R137). -/
theorem Channel.values_writeChannel (c : Channel) (field : Field) {x : Nat} (hx : x < 2 ^ fieldWidth field) :
    (writeChannel c field x).values = c.values.set field.position x := by
  calc (writeChannel c field x).values
      = c.values.set field.position (readChannel (writeChannel c field x) field) := by cases field <;> rfl
    _ = c.values.set field.position x := by rw [readChannel_writeChannel c field hx]

/-! ### Each operation on its arguments -/

theorem drain_of_negative {space : Int} (s : State) (h : space < 0) : drain space s = .refused .negativeSpace := if_pos h

theorem selectVfo_of_present {v : Nat} {s : State} (h : v < s.vfo.length) : selectVfo v s = .next { s with cur := v } := if_pos h

theorem selectVfo_of_absent {v : Nat} {s : State} (h : s.vfo.length ≤ v) : selectVfo v s = .refused .channelOutOfRange :=
  if_neg (Nat.not_lt.2 h)

theorem readField_of_field {v : Nat} {f : BitVec 3} {s : State} {c : Channel} {field : Field} (hv : s.vfo[v]? = some c)
    (hf : selectField f = some field) : readField v f s = .next (s.emit (.fieldRead (readChannel c field))) := by
  simp [readField, hv, hf]

theorem readField_of_absent {v : Nat} {s : State} (f : BitVec 3) (h : s.vfo.length ≤ v) :
    readField v f s = .refused .channelOutOfRange := by
  simp [readField, List.getElem?_eq_none h]

theorem readField_of_reserved {v : Nat} {f : BitVec 3} {s : State} (h : v < s.vfo.length) (hf : selectField f = none) :
    readField v f s = .refused .selectorReserved := by
  simp [readField, List.getElem?_eq_getElem h, hf]

theorem inject_of_absent {v : Nat} {s : State} (f : BitVec 3) (x : Nat) (h : s.vfo.length ≤ v) :
    inject v f x s = .refused .channelOutOfRange := by
  simp [inject, List.getElem?_eq_none h]

theorem inject_of_reserved {v : Nat} {f : BitVec 3} {s : State} (x : Nat) (h : v < s.vfo.length) (hf : selectField f = none) :
    inject v f x s = .refused .selectorReserved := by
  simp [inject, List.getElem?_eq_getElem h, hf]

/-- A value of more than 34 bits for FREQ, of more than 8 for MODE to TXP, or of more than 16 for STAT is too wide (R137, R142). -/
theorem inject_of_tooWide {v x : Nat} {f : BitVec 3} {s : State} (h : v < s.vfo.length) (hf : f.toNat < 7)
    (hx : 2 ^ (if f.toNat = 0 then 34 else if f.toNat ≤ 5 then 8 else 16) ≤ x) : inject v f x s = .refused .valueTooWide := by
  obtain ⟨field, hfield, hposition⟩ := selectField_of_lt hf
  rw [← hposition, ← fieldWidth_eq] at hx
  exact inject_of_wide (List.getElem?_eq_getElem h) hfield (Nat.not_lt.2 hx)

/-! ### Legal and illegal operations -/

/-- The outcome is a next state if the argument was legal, and a refusal if not. -/
def CompletesIff (legal : Bool) (o : Host.Outcome State Fault Refusal) : Prop :=
  (legal = true ∧ ∃ t, o = .next t) ∨ (legal = false ∧ ∃ r, o = .refused r)

/-- A received byte completes, whatever the state (R142, R143). -/
theorem rxByte_completes (b : Byte) (s : State) : ∃ t, rxByte b s = .next t := by
  obtain ⟨-, he⟩ | ⟨-, -, he⟩ | ⟨-, -, i, -, he⟩ := rxByte_cases b s
  · exact ⟨_, he⟩
  · exact ⟨_, he⟩
  · obtain ⟨t, ht, -⟩ := exec_effect i (rxResync (rxStore b s)).rxClear
    exact ⟨t, he.trans ht⟩

theorem drain_completesIff (space : Int) (s : State) : CompletesIff (legalOp s (.drain space)) (drain space s) := by
  by_cases h : space < 0
  · exact .inr ⟨decide_eq_false (by omega), _, drain_of_negative s h⟩
  · refine .inl ⟨decide_eq_true (by omega), ?_⟩
    rw [drain, if_neg h]
    split_ifs <;> exact ⟨_, rfl⟩

/-- READ_FIELD is legal for a channel that exists and a selector that names a field (R142). -/
theorem legalOp_readField (s : State) (v : Nat) (f : BitVec 3) :
    legalOp s (.readField v f) = (decide (v < s.vfo.length) && (selectField f).isSome) := by
  have hnamed : ∀ g : BitVec 3, (!(g == 7)) = (selectField g).isSome := by decide
  rw [legalOp, hnamed f]

theorem readField_completesIff (v : Nat) (f : BitVec 3) (s : State) :
    CompletesIff (legalOp s (.readField v f)) (readField v f s) := by
  by_cases hv : v < s.vfo.length
  · cases hfield : selectField f with
    | none => exact .inr ⟨by simp [legalOp_readField, hfield], _, readField_of_reserved hv hfield⟩
    | some field =>
      exact .inl ⟨by simp [legalOp_readField, hv, hfield], _, readField_of_field (List.getElem?_eq_getElem hv) hfield⟩
  · exact .inr ⟨by simp [legalOp, hv], _, readField_of_absent f (Nat.not_lt.1 hv)⟩

theorem inject_completesIff (v : Nat) (f : BitVec 3) (x : Nat) (s : State) :
    CompletesIff (legalOp s (.inject v f x)) (inject v f x s) := by
  by_cases hv : v < s.vfo.length
  · cases hfield : selectField f with
    | none => exact .inr ⟨by simp [legalOp, hfield], _, inject_of_reserved x hv hfield⟩
    | some field =>
      have hc := List.getElem?_eq_getElem hv
      by_cases hx : x < 2 ^ fieldWidth field
      · exact .inl ⟨by simp [legalOp, hv, hfield, hx], _, inject_of_fits hc hfield hx⟩
      · exact .inr ⟨by simp [legalOp, hfield, hx], _, inject_of_wide hc hfield hx⟩
  · exact .inr ⟨by simp [legalOp, hv], _, inject_of_absent f x (Nat.not_lt.1 hv)⟩

theorem selectVfo_completesIff (v : Nat) (s : State) : CompletesIff (legalOp s (.selectVfo v)) (selectVfo v s) := by
  by_cases h : v < s.vfo.length
  · exact .inl ⟨decide_eq_true h, _, selectVfo_of_present h⟩
  · exact .inr ⟨decide_eq_false h, _, selectVfo_of_absent (Nat.not_lt.1 h)⟩

/-- No operation faults, and one completes exactly when its argument is legal (R142, R143). -/
theorem perform_completesIff (op : Op) (s : State) : CompletesIff (legalOp s op) (perform op s) := by
  cases op with
  | rxByte b => exact .inl ⟨rfl, rxByte_completes b s⟩
  | drain space => exact drain_completesIff space s
  | readField v f => exact readField_completesIff v f s
  | readFlags => exact .inl ⟨rfl, _, rfl⟩
  | inject v f x => exact inject_completesIff v f x s
  | selectVfo v => exact selectVfo_completesIff v s
  | reset => exact .inl ⟨rfl, _, rfl⟩
  | rssi r => exact .inl ⟨rfl, _, rfl⟩

/-- What is still to come has no part in what is legal. -/
theorem legalOp_script (s : State) (rest : List Op) (op : Op) : legalOp { s with script := rest } op = legalOp s op := rfl

/-- Settles O52: a step is the fault of an empty script or performs the script's head, which completes exactly if it is legal. -/
theorem stepStopsOnlyOnIllegalArguments : Obligations.StepStopsOnlyOnIllegalArguments := by
  intro s
  cases hs : s.script with
  | nil =>
    rw [step_none hs]
    exact ⟨⟨fun _ => rfl, fun _ => ⟨_, rfl⟩⟩, by simp, by simp⟩
  | cons op rest =>
    rw [step_some hs]
    obtain ⟨hlegal, t, ht⟩ | ⟨hlegal, r, hr⟩ := perform_completesIff op { s with script := rest }
    · rw [legalOp_script] at hlegal
      simp [ht, hlegal]
    · rw [legalOp_script] at hlegal
      simp [hr, hlegal]

/-- Settles O53, by the refusals of each operation. -/
theorem illegalArgumentsAreNamed : Obligations.IllegalArgumentsAreNamed := by
  intro s rest v x f space
  refine ⟨fun h hs => (step_some hs).trans (drain_of_negative _ h),
    fun h hs => (step_some hs).trans (selectVfo_of_absent h),
    fun h hs => (step_some hs).trans (readField_of_absent f h),
    fun h hs => (step_some hs).trans (inject_of_absent f x h),
    fun h hs => (step_some hs).trans (readField_of_reserved h rfl),
    fun h hs => (step_some hs).trans (inject_of_reserved x h rfl),
    fun h hx hs => (step_some hs).trans (inject_of_tooWide h (by decide) hx),
    fun h hpos hle hx hs => (step_some hs).trans (inject_of_tooWide h (by omega) ?_),
    fun h hx hs => (step_some hs).trans (inject_of_tooWide h (by decide) hx)⟩
  rwa [if_neg (by omega), if_pos hle]

/-! ### What a legal operation does -/

/-- Settles O48: the selector's field stands at its own place among the record's values. -/
theorem readFieldReturnsTheField : Obligations.ReadFieldReturnsTheField := by
  intro s v f rest c hs hv hf
  obtain ⟨field, hfield, hposition⟩ := selectField_of_lt hf
  rw [← hposition]
  exact ⟨_, c.values_position field, (step_some hs).trans (readField_of_field (s := { s with script := rest }) hv hfield)⟩

/-- Settles O49, by performing the READ_FLAGS at the head of the script. -/
theorem readFlagsReturnsAndClears : Obligations.ReadFlagsReturnsAndClears := fun _ _ hs => step_some hs

/-- Settles O50: the value fits the width of the selector's field, and its write sets the one value at that place. -/
theorem injectWritesOneField : Obligations.InjectWritesOneField := by
  intro s v x f rest c hs hv hf hfreq hbyte hstat
  obtain ⟨field, hfield, hposition⟩ := selectField_of_lt hf
  have hfits : x < 2 ^ fieldWidth field := by
    rw [fieldWidth_eq, hposition]
    split_ifs with h0 h5
    · exact hfreq h0
    · exact hbyte (by omega) h5
    · exact hstat (by omega)
  rw [← hposition]
  exact ⟨_, (step_some hs).trans (inject_of_fits (s := { s with script := rest }) hv hfield hfits),
    c.values_writeChannel field hfits⟩

/-- Settles O51, by performing the SELECT_VFO at the head of the script. -/
theorem selectVfoMovesCurOnly : Obligations.SelectVfoMovesCurOnly := fun s _ rest hs hv =>
  (step_some hs).trans (selectVfo_of_present (s := { s with script := rest }) hv)

end Sys2Proof.Machine
end

section
/-! SUPPORT. What each operation adds to the outputs (spec/60_exceptions.md R149, R150, spec/41_frame_receiver.md R74), and the proof of
O60. -/

namespace Sys2Proof.Machine

/-! ### Commands -/

/-- The diag codes that a command can emit (R109 to R112, R127). -/
def commandDiagCodes : List DiagCode := [.cmdUnrecognized, .cmdUnimplemented, .setPayloadShort, .queueFull]

/-- From `s` to `t`, nothing was emitted, or one diag event with a command's code. -/
def EmitsAsCommand (s t : State) : Prop :=
  t.out = s.out ∨ ∃ c ∈ commandDiagCodes, t.out = s.out ++ [.diag c]

/-- An accepted reply emits nothing, a dropped one QUEUE_FULL (R126, R127). -/
theorem State.enqueue_emitsAsCommand (s : State) (m : Message) : EmitsAsCommand s (s.enqueue m) := by
  obtain ⟨-, he⟩ | ⟨-, he⟩ := s.enqueue_cases m <;> rw [he]
  · exact .inl rfl
  · exact .inr ⟨.queueFull, by decide, rfl⟩

theorem exec_emitsAsCommand {i : Instr} {s t : State} (h : exec i s = .next t) : EmitsAsCommand s t := by
  cases exec_cases h with
  | note c hc => exact .inr ⟨c, List.mem_append_left [DiagCode.queueFull] hc, rfl⟩
  | flag => exact .inl rfl
  | write c f _ => exact .inl rfl
  | reply p _ => exact s.enqueue_emitsAsCommand _
  | sample p _ _ => exact s.rssiUsed.enqueue_emitsAsCommand _

/-! ### Operations -/

/-- From `s` to `t`, at most one event was emitted. -/
def EmitsAtMostOne (s t : State) : Prop := t.out = s.out ∨ ∃ e, t.out = s.out ++ [e]

theorem EmitsAsCommand.emitsAtMostOne {s t : State} (h : EmitsAsCommand s t) : EmitsAtMostOne s t :=
  h.imp_right fun ⟨c, _, hout⟩ => ⟨.diag c, hout⟩

/-- From `s` to `t`, RX_OVERFLOW_DROP was emitted and then the one event of a command. -/
def EmitsOverflowThenCommand (s t : State) : Prop :=
  ∃ c ∈ commandDiagCodes, t.out = s.out ++ [.diag .rxOverflowDrop, .diag c]

/-- Steps 1 and 2 of the receiver emit nothing, or find the buffer full and only note the overflow (R75, R86). -/
theorem rxResync_rxStore_out (b : Byte) {s : State} (h : Safety.Inv s = true) :
    (rxResync (rxStore b s)).out = s.out ∨ (s.rxidx = 32 ∧ rxResync (rxStore b s) = s.diag .rxOverflowDrop) := by
  obtain ⟨-, -, -, -, hidx, -⟩ := (inv_iff s).1 h
  obtain ⟨buf, idx, codes, he, rfl | ⟨-, hroom⟩⟩ := rxResync_rxStore_frame b s
  · exact .inl (by rw [he, List.map_nil, List.append_nil])
  · have hfull : s.rxidx = 32 := by omega
    exact .inr ⟨hfull, rxResync_rxStore_full b h hfull⟩

/-- A received byte that overflows the buffer leaves 32 bytes held, which are no short frame: RX_SHORT_FRAME never follows the
overflow, only a command's event does, at an end marker (R77 to R79, R84). -/
theorem rxByte_emits {b : Byte} {s t : State} (h : Safety.Inv s = true) (hn : rxByte b s = .next t) :
    EmitsAtMostOne s t ∨ (b = Config.endMarker ∧ EmitsOverflowThenCommand s t) := by
  obtain hquiet | ⟨hfull, hdrop⟩ := rxResync_rxStore_out b h
  · left
    obtain ⟨-, he⟩ | ⟨-, -, he⟩ | ⟨-, -, i, -, he⟩ := rxByte_cases b s <;> rw [he] at hn
    · cases hn; exact .inl hquiet
    · cases hn; exact .inr ⟨.diag .rxShortFrame, congrArg (· ++ _) hquiet⟩
    · have hcommand := (exec_emitsAsCommand hn).emitsAtMostOne
      rwa [EmitsAtMostOne, State.rxClear_out, hquiet] at hcommand
  · obtain ⟨-, he⟩ | ⟨-, hshort, -⟩ | ⟨hb, -, i, -, he⟩ := rxByte_cases b s
    · rw [he, hdrop] at hn
      cases hn; exact .inl (.inr ⟨_, rfl⟩)
    · rw [hdrop, State.emit_rxidx] at hshort
      omega
    · rw [he, hdrop] at hn
      obtain hout | ⟨c, hc, hout⟩ := exec_emitsAsCommand hn
      · exact .inl (.inr ⟨_, hout⟩)
      · exact .inr ⟨hb, c, hc, hout.trans (List.append_assoc ..)⟩

/-- DRAIN emits what became of the message it takes off (R128 to R130). -/
theorem drain_emitsAtMostOne {space : Int} {s t : State} (h : drain space s = .next t) : EmitsAtMostOne s t := by
  obtain ⟨-, ⟨-, rfl⟩ | ⟨-, -, rfl⟩ | ⟨-, -, rfl⟩⟩ := drain_cases h
  · exact .inl rfl
  · exact .inr ⟨_, rfl⟩
  · exact .inr ⟨_, rfl⟩

/-- An operation emits at most one event, but for an end marker that overflows the buffer and dispatches (R149). -/
theorem perform_emits {op : Op} {s t : State} (h : Safety.Inv s = true) (hn : perform op s = .next t) :
    EmitsAtMostOne s t ∨ (op = .rxByte Config.endMarker ∧ EmitsOverflowThenCommand s t) := by
  cases op with
  | rxByte b => exact (rxByte_emits h hn).imp_right (And.imp_left (congrArg Op.rxByte))
  | drain space => exact .inl (drain_emitsAtMostOne hn)
  | readField v f => obtain ⟨c, field, -, -, rfl⟩ := readField_cases hn; exact .inl (.inr ⟨_, rfl⟩)
  | readFlags => cases hn; exact .inl (.inr ⟨_, rfl⟩)
  | inject v f x => obtain ⟨c, field, -, -, -, rfl⟩ := inject_cases hn; exact .inl (.inl rfl)
  | selectVfo v => obtain ⟨-, rfl⟩ := selectVfo_cases hn; exact .inl (.inl rfl)
  | reset => cases hn; exact .inl (.inl rfl)
  | rssi r => cases hn; exact .inl (.inl rfl)

/-! ### Diag events -/

/-- Among at most one event there is at most one diag event. -/
theorem EmitsAtMostOne.length_diagsOf_le_one {s t : State} (h : EmitsAtMostOne s t) :
    ∃ es : List Event, t.out = s.out ++ es ∧ (Safety.diagsOf es).length ≤ 1 := by
  obtain hout | ⟨e, hout⟩ := h
  · exact ⟨[], hout.trans (List.append_nil _).symm, Nat.zero_le _⟩
  · exact ⟨[e], hout, List.length_filterMap_le ..⟩

/-- Settles O60: the operation at the head of the script emits at most one event, or is an end marker that finds the buffer full. -/
theorem diagEventsComeInOrder : Obligations.DiagEventsComeInOrder := by
  intro s t hinv h
  obtain ⟨op, rest, hs, hp⟩ := step_next_head h
  rw [hs, List.head?_cons]
  obtain hone | ⟨rfl, c, hc, hout⟩ := perform_emits (s := { s with script := rest }) hinv hp
  · obtain ⟨es, hout, hdiags⟩ := hone.length_diagsOf_le_one
    exact ⟨es, hout, .inl hdiags⟩
  · exact ⟨_, hout, .inr ⟨c, rfl, rfl, hc⟩⟩

end Sys2Proof.Machine
end

section
/-! SUPPORT. The frames written out in the spec's test vectors (spec/95_test_vectors.md), and the proof of O11. -/

namespace Sys2Proof

/-- Bytes that are a well-formed instruction's frame decode to it (R54, R62). -/
theorem decode_of_encode_eq {i : Instr} {bytes : List Byte} (hwf : i.wf = true) (hbytes : encode i = bytes) :
    decode bytes = .ok i :=
  hbytes ▸ decodeUndoesEncode i hwf

/-- Settles O11: each frame is the encoding of the well-formed instruction that the vector names, so O8 gives it back. -/
theorem specFramesDecode : Obligations.SpecFramesDecode := by
  refine ⟨?_, ?_, ?_, ?_, ?_, ?_, ?_⟩ <;> exact decode_of_encode_eq rfl rfl

end Sys2Proof
end
